-- ==== Sys2Proof/Word.lean ====
section
/-!
DEFINITION. The two word types of the block: the bus byte (`u8`) and the tuner register (`u16`)
(spec/00_scope.md R6, R8). Their byte-order helpers stand in Decode.lean.
-/

namespace Sys2Proof

/-- `u8`: a bus byte, an operand byte, a character code, a cursor coordinate (R8, R16). -/
abbrev Byte := BitVec 8

/-- `u16`: a tuner register, the result register, a 16-bit operand (R6 `REG_BITS`, R15). -/
abbrev Word := BitVec 16

end Sys2Proof
end

