-- ==== Sys2Proof/Syntax.lean ====
section
/-!
DEFINITION. The instructions: the twenty operations of the three contracts (spec/30_encoding.md R63),
one constructor per row of spec/opcode_table.json, each with the operands its format carries (R61, R64, R65).
Operands are held as the bytes give them; which values are legal (R67) is WellFormed.lean.
-/

namespace Sys2Proof

/-- One command of the block (R63). -/
inductive Instr where
  /-- `BUS.START a`: start condition and address byte (R98). -/
  | busStart (a : Byte)
  /-- `BUS.WRITE b`: send one byte (R96). -/
  | busWrite (b : Byte)
  /-- `BUS.READ k`: receive one byte; `k` 0x01 acknowledges, 0x00 does not (R97, R64). -/
  | busRead (k : Byte)
  /-- `BUS.RESTART a`: repeated start and address byte (R99). -/
  | busRestart (a : Byte)
  /-- `BUS.STOP`: stop condition (R100). -/
  | busStop
  /-- `DSP.INIT`: send the init command bytes (R111). -/
  | dspInit
  /-- `DSP.SETCURSOR col, row`: move the write position and the shadow (R112). -/
  | dspSetcursor (col row : Byte)
  /-- `DSP.CLEARLINE`: blank the rest of the page, go to the next (R118). -/
  | dspClearline
  /-- `DSP.CLEARSCREEN`: home and four cleared lines (R119). -/
  | dspClearscreen
  /-- `DSP.PRINTCHAR c`: one character (R120). -/
  | dspPrintchar (c : Byte)
  /-- `DSP.PRINTSTR s`: a string (R121). -/
  | dspPrintstr (s : List Byte)
  /-- `DSP.PRINTLINE s`: a string, then `DSP.CLEARLINE` (R122). -/
  | dspPrintline (s : List Byte)
  /-- `DSP.PRINTNUM value, digits, decimal`: a formatted number (R123). -/
  | dspPrintnum (value : Word) (digits decimal : Byte)
  /-- `TUN.INIT`: reset pulse and starting volume (R145). -/
  | tunInit
  /-- `TUN.SETVOL level` (R146). -/
  | tunSetvol (level : Byte)
  /-- `TUN.SETCHAN chan` (R147). -/
  | tunSetchan (chan : Word)
  /-- `TUN.SEEK` (R148). -/
  | tunSeek
  /-- `TUN.WAIT`: poll until the device reports completion (R159). -/
  | tunWait
  /-- `TUN.UPDATE`: one poll (R150). -/
  | tunUpdate
  /-- `TUN.FREQ`: the frequency of the channel read back (R160). -/
  | tunFreq
  deriving DecidableEq, Repr

end Sys2Proof
end

