-- ==== Sys2Proof/WellFormed.lean ====
section
/-!
DEFINITION. Which operand values are legal: the table of spec/30_encoding.md R67. An instruction that
fails this check is what the spec calls `reserved-operand`. The character range depends on the font's
glyph count, so the check takes it as an argument.
-/

namespace Sys2Proof

/-- A character code the font holds: `32 <= c < 32 + FONT_NGLYPH` (R67). -/
def charOk (nGlyph : Nat) (c : Byte) : Bool :=
  decide (32 ≤ c.toNat) && decide (c.toNat < 32 + nGlyph)

/-- Every operand is in the legal column of R67. -/
def Instr.wellFormed (nGlyph : Nat) : Instr → Bool
  | .busStart _ => true
  | .busWrite _ => true
  | .busRead k => decide (k.toNat ≤ 1)
  | .busRestart _ => true
  | .busStop => true
  | .dspInit => true
  | .dspSetcursor _ _ => true
  | .dspClearline => true
  | .dspClearscreen => true
  | .dspPrintchar c => charOk nGlyph c
  | .dspPrintstr s => s.all (charOk nGlyph)
  | .dspPrintline s => s.all (charOk nGlyph)
  | .dspPrintnum value digits _ => decide (digits.toNat ≤ 5) && decide (value.toNat < 10 ^ digits.toNat)
  | .tunInit => true
  | .tunSetvol level => decide (level.toNat ≤ 15)
  | .tunSetchan chan => decide (chan.toNat ≤ 1023)
  | .tunSeek => true
  | .tunWait => true
  | .tunUpdate => true
  | .tunFreq => true

end Sys2Proof
end

