-- ==== Sys2Proof/Decode.lean ====
section
/-!
DEFINITION. The command stream's decoder and encoder (spec/30_encoding.md Part A, R60 to R68), the
opcode map written once as a table that reads like R63, and the byte-order helpers (R8, R48, R64).
The decoder reads syntax (`reserved-opcode`, `truncated`); `decodeLegal` adds the operand check
(`reserved-operand`), in the order of spec/60_exceptions.md R183.
-/

namespace Sys2Proof

/-- `hi(v) = v[15:8]` (R8). -/
def hiByte (v : Word) : Byte := v.extractLsb' 8 8

/-- `lo(v) = v[7:0]` (R8). -/
def loByte (v : Word) : Byte := v.extractLsb' 0 8

/-- `(h << 8) | l`: two bytes, high byte first, as one 16-bit value (R48, R64). -/
def joinBytes (h l : Byte) : Word := h ++ l

/-- Why a byte list is no legal command (R66, R67, R68). -/
inductive DecodeError where
  /-- The opcode byte is not in the map (R66). -/
  | reservedOpcode
  /-- The bytes end before the command does (R68). -/
  | truncated
  /-- An operand value in the reserved column of R67. -/
  | reservedOperand
  deriving DecidableEq, Repr

/-- The six command formats (R61), each with the constructor that takes its operands. -/
inductive Format where
  | n (i : Instr)
  | b (mk : Byte → Instr)
  | bb (mk : Byte → Byte → Instr)
  | h (mk : Word → Instr)
  | hbb (mk : Word → Byte → Byte → Instr)
  | s (mk : List Byte → Instr)

/-- The opcode map (R63). -/
def opcodeMap : List (Nat × Format) :=
  [(0x10, .b .busStart), (0x11, .b .busWrite), (0x12, .b .busRead), (0x13, .b .busRestart), (0x14, .n .busStop)] ++
  [(0x20, .n .dspInit), (0x21, .bb .dspSetcursor), (0x22, .n .dspClearline), (0x23, .n .dspClearscreen),
   (0x24, .b .dspPrintchar), (0x25, .s .dspPrintstr), (0x26, .s .dspPrintline), (0x27, .hbb .dspPrintnum)] ++
  [(0x30, .n .tunInit), (0x31, .b .tunSetvol), (0x32, .h .tunSetchan), (0x33, .n .tunSeek), (0x34, .n .tunWait),
   (0x35, .n .tunUpdate), (0x36, .n .tunFreq)]

/-- The characters up to, not including, the first 0x00; `none` if there is no 0x00 (R65, R68). -/
def takeString : List Byte → Option (List Byte)
  | [] => none
  | c :: rest => if c = 0 then some [] else (takeString rest).map (c :: ·)

/-- Read the operand bytes of a format (R61, R64); `none` if the bytes end too early (R68). -/
def Format.operands : Format → List Byte → Option Instr
  | .n i, _ => some i
  | .b mk, x :: _ => some (mk x)
  | .bb mk, x :: y :: _ => some (mk x y)
  | .h mk, x :: y :: _ => some (mk (joinBytes x y))
  | .hbb mk, x :: y :: z :: w :: _ => some (mk (joinBytes x y) z w)
  | .s mk, bytes => (takeString bytes).map mk
  | .b _, _ => none
  | .bb _, _ => none
  | .h _, _ => none
  | .hbb _, _ => none

/-- Decode the command at the head of a byte list: total, and rejecting by name (R60, R66, R68). -/
def decode : List Byte → Except DecodeError Instr
  | [] => .error .truncated
  | op :: rest =>
    match opcodeMap.lookup op.toNat with
    | none => .error .reservedOpcode
    | some f =>
      match f.operands rest with
      | none => .error .truncated
      | some i => .ok i

/-- The whole decode result of R60, the operand check of R67 included, which comes last (R183). -/
def decodeLegal (nGlyph : Nat) (bytes : List Byte) : Except DecodeError Instr :=
  match decode bytes with
  | .error e => .error e
  | .ok i => if i.wellFormed nGlyph then .ok i else .error .reservedOperand

/-- The opcode byte of an instruction (R63). -/
def Instr.opcode : Instr → Byte
  | .busStart _ => 0x10
  | .busWrite _ => 0x11
  | .busRead _ => 0x12
  | .busRestart _ => 0x13
  | .busStop => 0x14
  | .dspInit => 0x20
  | .dspSetcursor _ _ => 0x21
  | .dspClearline => 0x22
  | .dspClearscreen => 0x23
  | .dspPrintchar _ => 0x24
  | .dspPrintstr _ => 0x25
  | .dspPrintline _ => 0x26
  | .dspPrintnum _ _ _ => 0x27
  | .tunInit => 0x30
  | .tunSetvol _ => 0x31
  | .tunSetchan _ => 0x32
  | .tunSeek => 0x33
  | .tunWait => 0x34
  | .tunUpdate => 0x35
  | .tunFreq => 0x36

/-- The operand bytes of an instruction (R61, R64, R65). -/
def Instr.operandBytes : Instr → List Byte
  | .busStart a => [a]
  | .busWrite b => [b]
  | .busRead k => [k]
  | .busRestart a => [a]
  | .busStop => []
  | .dspInit => []
  | .dspSetcursor col row => [col, row]
  | .dspClearline => []
  | .dspClearscreen => []
  | .dspPrintchar c => [c]
  | .dspPrintstr s => s ++ [0]
  | .dspPrintline s => s ++ [0]
  | .dspPrintnum value digits decimal => [hiByte value, loByte value, digits, decimal]
  | .tunInit => []
  | .tunSetvol level => [level]
  | .tunSetchan chan => [hiByte chan, loByte chan]
  | .tunSeek => []
  | .tunWait => []
  | .tunUpdate => []
  | .tunFreq => []

/-- The bytes of a command (R61). -/
def encode (i : Instr) : List Byte := i.opcode :: i.operandBytes

/-- The length of a command in bytes (R62): 1, 2, 3, 3, 5, or n+2. -/
def Instr.length : Instr → Nat
  | .busStart _ => 2
  | .busWrite _ => 2
  | .busRead _ => 2
  | .busRestart _ => 2
  | .busStop => 1
  | .dspInit => 1
  | .dspSetcursor _ _ => 3
  | .dspClearline => 1
  | .dspClearscreen => 1
  | .dspPrintchar _ => 2
  | .dspPrintstr s => s.length + 2
  | .dspPrintline s => s.length + 2
  | .dspPrintnum _ _ _ => 5
  | .tunInit => 1
  | .tunSetvol _ => 2
  | .tunSetchan _ => 3
  | .tunSeek => 1
  | .tunWait => 1
  | .tunUpdate => 1
  | .tunFreq => 1

/-- The first `n` bytes of a number whose bits 7..0 are the first byte, 15..8 the second, and so on. -/
def wordBytes : Nat → Nat → List Byte
  | 0, _ => []
  | n + 1, w => BitVec.ofNat 8 w :: wordBytes n (w / 256)

/-- The bytes of a table word as the command stream holds them: the given bytes, then zero operand
bytes (and a string's terminator), enough for the longest fixed format (log 35). -/
def tableBytes (nbits w : Nat) : List Byte := wordBytes ((nbits + 7) / 8) w ++ List.replicate 5 0

/-- The instruction the decoder reads from a word numbered as spec/opcode_table.json numbers it. -/
def decodeTableWord (nbits w : Nat) : Option Instr :=
  match decode (tableBytes nbits w) with
  | .ok i => some i
  | .error _ => none

end Sys2Proof
end

