-- ==== Sys2Proof/Config.lean ====
section
/-!
DEFINITION. The configuration record of spec/00_scope.md R7: every value the source names and does
not give, as one field, and the free values of the model (constants without a body). The record is
plain data and stands in State (log 1); `Config.default` in Machine/Defaults.lean is the value State.reset gives it.
The constraints on a record (R134, R176) are `configOk` in Machine/Operands.lean.
-/

namespace Sys2Proof

/-- How the display's cursor command bytes follow from column and row: the parameter
`CURSOR_CMDS(col,row)` of R7, a function of two bytes, held as plain data (log 6). `pageAddressed` is the
default of R7; `table` is any given function, as its values: the bytes for column `col` and row `row` are
entry `row` of entry `col`; `other` is a display whose bytes are not given, the free function
`Config.freeCursorCmds`. DESIGN CHOICE (the form); PRESUMED (the default's bytes, the spec's G14). -/
inductive CursorCmds where
  | pageAddressed
  | table (values : Vector (Vector (List Byte) 256) 256)
  | other
  deriving DecidableEq, Repr

/-- The font ROM `FONT` (R7, R17). `bytes` is a given table; `free` is a table of the required length
whose every byte is the free value `Config.freeFontByte`, since the spec gives no font byte (log 9). -/
inductive FontRom where
  | bytes (l : List Byte)
  | free
  deriving DecidableEq, Repr

/-- The configuration parameters of R7, one field each; a value is checked by `configOk`. -/
structure Config where
  /-- `ADDR_DISP`: 7-bit bus address of the display. -/
  addrDisp : Byte
  /-- `ADDR_TUN_SEQ`: 7-bit address of the tuner, sequential access. -/
  addrTunSeq : Byte
  /-- `ADDR_TUN_IDX`: 7-bit address of the tuner, indexed access. -/
  addrTunIdx : Byte
  /-- `CTRL_CMD`: payload byte that selects the display's command channel. -/
  ctrlCmd : Byte
  /-- `CTRL_DATA`: payload byte that selects the display's data channel. -/
  ctrlData : Byte
  /-- `DISP_COLS`: pixel columns per page. -/
  dispCols : Nat
  /-- `CURSOR_CMDS`: the cursor command bytes for each column and row. -/
  cursorCmds : CursorCmds
  /-- `DISP_INIT_SEQ`: the content of the ROM table `INIT` (R17). -/
  initSeq : List Byte
  /-- `FONT_NGLYPH`: glyphs in the font ROM. -/
  nGlyph : Nat
  /-- `FONT`: the font ROM, five bytes a glyph (R17). -/
  font : FontRom
  /-- `WREG_PRESET[0..5]`: power-on content of the writable cache. -/
  wregPreset : Vector Word 6
  /-- `R_RESET`: cache index of the soft-reset bit. -/
  rReset : Nat
  /-- `M_RESET`: mask of the soft-reset bit. -/
  mReset : Word
  /-- `R_SEEK`: cache index of the seek-enable flag. -/
  rSeek : Nat
  /-- `M_SEEK`: mask of the seek-enable flag. -/
  mSeek : Word
  /-- `R_RDSREQ`: cache index of the radio-data request flag. -/
  rRdsreq : Nat
  /-- `M_RDSREQ`: mask of the radio-data request flag. -/
  mRdsreq : Word
  /-- `R_CHAN`: cache index of the register with the channel field and the tune flag. -/
  rChan : Nat
  /-- `CHAN_SHIFT`: left shift of the 10-bit channel field. -/
  chanShift : Nat
  /-- `M_TUNE`: mask of the tune-enable flag, in register `R_CHAN`. -/
  mTune : Word
  /-- `R_VOL`: cache index of the volume register. -/
  rVol : Nat
  /-- `VOL_SHIFT`: left shift of the 4-bit volume field. -/
  volShift : Nat
  /-- `R_STATUS`: read-bank index of the status register. -/
  rStatus : Nat
  /-- `M_RDSR`: mask of "radio-data available". -/
  mRdsr : Word
  /-- `M_STC`: mask of "tuning finished". -/
  mStc : Word
  /-- `CHAN_RD_SHIFT`: right shift of the 10-bit channel read-back field. -/
  chanRdShift : Nat
  /-- `R_BLKB`: read-bank index of the block with group type and segment offset. -/
  rBlkb : Nat
  /-- `R_BLKD`: read-bank index of the block with the two characters. -/
  rBlkd : Nat
  /-- `PS_MASK` of the station-name group pattern. -/
  psMask : Word
  /-- `PS_MATCH` of the station-name group pattern. -/
  psMatch : Word
  /-- `START_VOLUME`: the volume `TUN.INIT` establishes. -/
  startVolume : Byte
  /-- `POLL_INTERVAL`: the sleep of `TUN.WAIT`; no rule depends on it (R188). -/
  pollInterval : Nat
  /-- `CAND_RESET[0..7]`: power-on content of the candidate buffer. -/
  candReset : Vector Byte 8
  deriving DecidableEq, Repr

/-- FREE VALUE (log 5): the environment's drive of the data line at the n-th `sample` when the state
scripts no answer; `true` is "no slave pulls SDA low" (R47, U10). No body: nothing can be proved of it. -/
opaque Config.freeDrive : Nat → Bool

/-- FREE VALUE (log 9): the font ROM byte at an index; the spec gives no font byte (R17, N15). -/
opaque Config.freeFontByte : Nat → Byte

/-- FREE VALUE (log 6): the cursor command bytes of a display of which nothing is given (R7, D14). -/
opaque Config.freeCursorCmds : Byte → Byte → List Byte

end Sys2Proof
end

