-- ==== Sys2Proof/Machine/Defaults.lean ====
section
/-!
DEFINITION. The configuration record that State.reset carries (spec/00_scope.md R7; logs 7, 8, 9).
-/

namespace Sys2Proof

/-- The configuration of State.reset: the defaults of R7 (PRESUMED, the spec's general knowledge of the
family, log 7), the illustrative values of spec/95_test_vectors.md for the parameters R7 leaves OPEN
(`FONT_NGLYPH`, `WREG_PRESET`, `START_VOLUME`, `CAND_RESET`, and DESIGN CHOICE for `POLL_INTERVAL`, log 8),
free font bytes (log 9). Unsafe for a claim about State.reset; a claim over all states holds for every record. -/
def Config.default : Config where
  addrDisp := 0x3C
  addrTunSeq := 0x10
  addrTunIdx := 0x11
  ctrlCmd := 0x00
  ctrlData := 0x40
  dispCols := 128
  cursorCmds := .pageAddressed
  initSeq := [0xA8, 0x1F, 0xDA, 0x02, 0x8D, 0x14, 0xAF, 0xA1, 0xC8, 0x81, 0x7F]
  nGlyph := 96
  font := .free
  wregPreset := #v[0xD20D, 0x15C0, 0x0A00, 0x8880, 0x0000, 0x0000]
  rReset := 0
  mReset := 0x0002
  rSeek := 0
  mSeek := 0x0100
  rRdsreq := 0
  mRdsreq := 0x0008
  rChan := 1
  chanShift := 6
  mTune := 0x0010
  rVol := 3
  volShift := 0
  rStatus := 0
  mRdsr := 0x8000
  mStc := 0x4000
  chanRdShift := 0
  rBlkb := 3
  rBlkd := 5
  psMask := 0xF000
  psMatch := 0x0000
  startVolume := 5
  pollInterval := 1
  candReset := #v[0, 0, 0, 0, 0, 0, 0, 0]

end Sys2Proof
end

