-- ==== Sys2Proof/Machine/State.lean ====
section
/-!
DEFINITION. The state of the block (spec/10_state.md R10), its reset (R30), and the reasons a step can stop.
State is plain data. Besides the block's own state it carries what the fixed step function has no other
argument for: the configuration (log 1), the command stream (log 2) and the environment's answers (log 5).
-/

namespace Sys2Proof.Machine

/-- A line event: one per micro-operation (spec/40_bus.md R95). -/
inductive Event where
  /-- `sda_low` (R90). -/
  | sdaLow
  /-- `sda_rel` (R91). -/
  | sdaRel
  /-- `scl_low` (R92). -/
  | sclLow
  /-- `scl_rel` (R93). -/
  | sclRel
  /-- `sample`, with the bit it returned (R94). -/
  | sample (b : Bool)
  deriving DecidableEq, Repr

/-- Where the tuner driver stands (R25). -/
inductive TState where
  /-- 0 `UNINIT` -/
  | uninit
  /-- 1 `SOFTRESET` -/
  | softreset
  /-- 2 `IDLE` -/
  | idle
  /-- 3 `SEEKING` -/
  | seeking
  /-- 4 `TUNING` -/
  | tuning
  deriving DecidableEq, Repr

/-- Why the block itself stops: there is no such reason. "The complete list of exception causes is
therefore empty" (spec/60_exceptions.md R180), so the type has no constructor, and no step faults. -/
inductive Fault where
  deriving DecidableEq, Repr

/-- Why the model refuses (spec/60_exceptions.md R181: a closed list; R183: their order). Every one is
safe: the model stops where the spec gives no meaning. -/
inductive Refusal where
  /-- An instruction without a meaning yet: raised by `exec`'s arms only. Safe. No arm raises it now. -/
  | notModelled (mnemonic : String)
  /-- `bad-configuration`: a parameter outside R134 or R176 (U14). Raised by `step` before any command is
  decoded, and by every meaning. Safe. -/
  | badConfiguration
  /-- `reserved-opcode`: an opcode byte outside the map (R66, U2). Raised by `step`. Safe. -/
  | reservedOpcode
  /-- `truncated`: the stream ends inside a command (R68, U4). Raised by `step`. Safe. -/
  | truncated
  /-- `reserved-operand`: an operand in the reserved column of R67 (U1, U3, U5, U6, U8, U9). Raised by
  `step` and by the meanings. Safe. -/
  | reservedOperand
  deriving DecidableEq, Repr

/-- The whole state (R10), plus configuration, command stream and environment answers (logs 1, 2, 5). -/
structure State where
  /-- The configuration record (R7); no operation writes it (R55, log 1). -/
  cfg : Config
  /-- The command stream (R60); no operation writes it (R55, log 2). -/
  stream : List Byte
  /-- `cp`: index in the stream of the current command's first byte (R12). -/
  cp : Nat
  /-- `SDA_DRV`: the block pulls the data line low (R11). -/
  sdaDrv : Bool
  /-- `SCL_DRV`: the block pulls the clock line low (R11). -/
  sclDrv : Bool
  /-- `RES`: the result register (R15). -/
  res : Word
  /-- `CUR_X`: cursor shadow, column (R16). -/
  curX : Byte
  /-- `CUR_Y`: cursor shadow, page (R16). -/
  curY : Byte
  /-- `WREG[0..5]`: the writable-bank cache, tuner registers 0x02 to 0x07 (R19). -/
  wreg : Vector Word 6
  /-- `RREG[0..5]`: the read-bank copy, tuner registers 0x0A to 0x0F (R21). -/
  rreg : Vector Word 6
  /-- `NAME[0..8]`: the station name and its terminator (R23). -/
  name : Vector Byte 9
  /-- `CAND[0..8]`: the candidate buffer (R24). -/
  cand : Vector Byte 9
  /-- `TSTATE` (R25). -/
  tstate : TState
  /-- The history of line events, NEWEST FIRST; `State.trace` is the trace of R95 (log 13). -/
  traceRev : List Event
  /-- The model's own: the environment's coming answers to `sample`, next first (R47, log 5). -/
  answers : List Bool
  /-- The model's own: how many samples have been taken; indexes the free answers (log 5). -/
  sampleNo : Nat
  deriving DecidableEq, Repr

/-- The state right after power-on of a block with configuration `c` (R30, R200, R201). -/
def State.resetWith (c : Config) : State where
  cfg := c
  stream := []
  cp := 0
  sdaDrv := false
  sclDrv := false
  res := 0
  curX := 0
  curY := 0
  wreg := c.wregPreset
  rreg := Vector.replicate 6 0
  name := (Vector.replicate 8 0x20).push 0
  cand := c.candReset.push 0
  tstate := .uninit
  traceRev := []
  answers := []
  sampleNo := 0

/-- The machine right after reset, with the configuration of logs 7, 8 and 9. -/
def State.reset : State := State.resetWith Config.default

end Sys2Proof.Machine
end

