-- ==== Sys2Proof/Machine/Operands.lean ====
section
/-!
DEFINITION. What the operations compute from operands, configuration and register values, without
touching the state: the configuration check (R134, R176), addresses (R41), ROM reads (R44), field merges
(R20, R146, R147), digit extraction (R123), and the frequency (R160).
-/

namespace Sys2Proof.Machine

/-! ### Registers of a bank -/

/-- Read an element of a register bank; an index outside the bank, which `configOk` excludes, reads as 0 (log 12). -/
def bankGet (bank : Vector Word 6) (i : Nat) : Word := bank[i]?.getD 0

/-- Write an element of a register bank; an index outside the bank, which `configOk` excludes, writes nothing (log 12). -/
def bankSet (bank : Vector Word 6) (i : Nat) (v : Word) : Vector Word 6 := bank.setIfInBounds i v

/-- Read an element of a character buffer (R23, R24). -/
def slotGet (buf : Vector Byte 9) (i : Nat) : Byte := buf[i]?.getD 0

/-- Write an element of a character buffer (R23, R24). -/
def slotSet (buf : Vector Byte 9) (i : Nat) (c : Byte) : Vector Byte 9 := buf.setIfInBounds i c

/-! ### Fields of tuner registers (R20, R22) -/

/-- The bits of the channel field in register `R_CHAN`. -/
def chanMask (c : Config) : Word := 0x03FF#16 <<< c.chanShift

/-- The bits of the volume field in register `R_VOL`. -/
def volMask (c : Config) : Word := 0x000F#16 <<< c.volShift

/-- The bits of the channel read-back field in register `R_STATUS`. -/
def chanRdMask (c : Config) : Word := 0x03FF#16 <<< c.chanRdShift

/-- The six named fields of the writable bank, each as register index and mask (R20). -/
def writableFields (c : Config) : List (Nat × Word) :=
  [(c.rReset, c.mReset), (c.rSeek, c.mSeek), (c.rRdsreq, c.mRdsreq), (c.rChan, chanMask c), (c.rChan, c.mTune),
   (c.rVol, volMask c)]

/-- The named fields of the read bank, each as register index and mask (R22); the two radio-data words
are fields of the full width. -/
def readFields (c : Config) : List (Nat × Word) :=
  [(c.rStatus, c.mRdsr), (c.rStatus, c.mStc), (c.rStatus, chanRdMask c), (c.rBlkb, 0xFFFF#16), (c.rBlkd, 0xFFFF#16)]

/-- No two fields of one register share a bit (R20, R176). -/
def fieldsDisjoint : List (Nat × Word) → Bool
  | [] => true
  | f :: rest => rest.all (fun g => f.1 != g.1 || f.2 &&& g.2 == 0) && fieldsDisjoint rest

/-- Exactly one bit of the mask is set (R176). -/
def oneBit (m : Word) : Bool := (List.range 16).any (fun i => m == 1#16 <<< i)

/-! ### The configuration check (R134, R176, U14) -/

/-- The font table is `5 * FONT_NGLYPH` bytes long (R134). -/
def fontLengthOk (c : Config) : Bool :=
  match c.font with
  | .bytes l => l.length == 5 * c.nGlyph
  | .free => true

/-- The constraints of R134: display width, font size. -/
def displayOk (c : Config) : Bool :=
  decide (128 ≤ c.dispCols) && decide (c.dispCols ≤ 255) && decide (26 ≤ c.nGlyph) && decide (c.nGlyph ≤ 224) && fontLengthOk c

/-- Register indices are in 0..5 (R176). -/
def indicesOk (c : Config) : Bool :=
  [c.rReset, c.rSeek, c.rRdsreq, c.rChan, c.rVol, c.rStatus, c.rBlkb, c.rBlkd].all (fun i => decide (i ≤ 5))

/-- The shifts keep their fields inside 16 bits (R176). -/
def shiftsOk (c : Config) : Bool :=
  decide (c.chanShift ≤ 6) && decide (c.chanRdShift ≤ 6) && decide (c.volShift ≤ 12)

/-- Each flag mask has exactly one bit (R176). -/
def masksOk (c : Config) : Bool :=
  [c.mReset, c.mSeek, c.mRdsreq, c.mTune, c.mStc, c.mRdsr].all oneBit

/-- Addresses fit seven bits, the starting volume its field (R176). -/
def valuesOk (c : Config) : Bool :=
  [c.addrDisp, c.addrTunSeq, c.addrTunIdx].all (fun a => decide (a.toNat ≤ 0x7F)) && decide (c.startVolume.toNat ≤ 15)

/-- The record meets every constraint; a record that does not is `bad-configuration` (R181, U14). -/
def configOk (c : Config) : Bool :=
  displayOk c && indicesOk c && shiftsOk c && masksOk c && fieldsDisjoint (writableFields c) &&
    fieldsDisjoint (readFields c) && valuesOk c

/-! ### Bus and display operands -/

/-- The bits of a byte in the order they travel, most significant first (R48). -/
def msbBits (b : Byte) : List Bool :=
  [b.getLsbD 7, b.getLsbD 6, b.getLsbD 5, b.getLsbD 4, b.getLsbD 3, b.getLsbD 2, b.getLsbD 1, b.getLsbD 0]

/-- The shift step of `READ`: `d <- (d << 1) | bit` (R97). -/
def shiftIn (d : Byte) (bit : Bool) : Byte := (d <<< 1) ||| (BitVec.ofBool bit).zeroExtend 8

/-- `addr_byte(a7, rw) = (a7 << 1) | rw`, `rw` true for read (R41, log 16). -/
def addrByte (a7 : Byte) (rw : Bool) : Byte := (a7 <<< 1) ||| (BitVec.ofBool rw).zeroExtend 8

/-- `CURSOR_CMDS(col, row)` (R7, R112, log 6). -/
def cursorBytes (c : Config) (col row : Byte) : List Byte :=
  match c.cursorCmds with
  | .pageAddressed => [col &&& 0x0F, 0x10#8 ||| (col >>> 4), 0xB0#8 ||| (row &&& 0x07)]
  | .table values => values[col.toNat][row.toNat]
  | .other => Config.freeCursorCmds col row

/-- `MemRead(FONT, i, 1)` (R44); an index outside the table, which R67 and R134 exclude, reads as 0 (log 12). -/
def fontByte (c : Config) (i : Nat) : Byte :=
  match c.font with
  | .bytes l => l.getD i 0
  | .free => Config.freeFontByte i

/-- `idx <- (zext_16(c) - 32) * 5` (R116, R134). -/
def glyphIndex (ch : Byte) : Word := (ch.zeroExtend 16 - 32) * 5

/-- The six data bytes of a character: one blank column, then the five font bytes (R116, R77). -/
def glyphBytes (c : Config) (ch : Byte) : List Byte :=
  let idx := (glyphIndex ch).toNat
  [0x00, fontByte c idx, fontByte c (idx + 1), fontByte c (idx + 2), fontByte c (idx + 3), fontByte c (idx + 4)]

/-- The column past which a character no longer starts: `WRAP_LIMIT` (R6, R117). -/
def wrapLimit : Byte := 122

/-! ### Number formatting (R123) -/

/-- `POW10[0..4]` (R6, R17). -/
def pow10 (p : Nat) : Word := [1#16, 10#16, 100#16, 1000#16, 10000#16].getD p 0

/-- The inner loop of R123: subtract `pw` while it fits, counting; `fuel` bounds the number of
subtractions. Answers the remaining value and the count. -/
def subtractLoop (pw : Word) : Nat → Word → Byte → Word × Byte
  | 0, v, d => (v, d)
  | fuel + 1, v, d => if pw ≤ v then subtractLoop pw fuel (v - pw) (d + 1) else (v, d)

/-- One digit at position `p`: remaining value and digit. Each subtraction takes at least 1 from `v`, so
`v` itself is fuel enough for the loop to end by its own test. -/
def takeDigit (v : Word) (p : Nat) : Word × Byte := subtractLoop (pow10 p) v.toNat v 0

/-! ### Tuner fields -/

/-- The volume merge of R146. -/
def mergeVol (c : Config) (w : Word) (level : Byte) : Word :=
  (w &&& ~~~(volMask c)) ||| (level.zeroExtend 16 <<< c.volShift)

/-- The channel merge of R147, tune flag set. -/
def mergeChan (c : Config) (w : Word) (chan : Word) : Word :=
  (w &&& ~~~(chanMask c)) ||| (chan <<< c.chanShift) ||| c.mTune

/-- The channel the device reports: `(RREG[R_STATUS] >> CHAN_RD_SHIFT)[9:0]` (R22, R160). -/
def chanRd (c : Config) (rreg : Vector Word 6) : Word :=
  (bankGet rreg c.rStatus >>> c.chanRdShift) &&& 0x03FF

/-- `FREQ(ch) = 8700 + (ch << 3) + (ch << 1)`, in `u16` (R160, R176). -/
def freq (ch : Word) : Word := 8700#16 + (ch <<< 3) + (ch <<< 1)

end Sys2Proof.Machine
end

