-- ==== Sys2Proof/Machine/Flags.lean ====
section
/-!
DEFINITION. The flag-like values. The block has no condition codes (spec/10_state.md R26); what there is:
the transient `SHOWN` of number formatting (R18, R123) and the two device-reported bits of the read bank (R22).
-/

namespace Sys2Proof.Machine

/-- `SHOWN` after the digit `d` at position `p`: set at the decimal position and by a nonzero digit,
never cleared (R123, spec/90_conflicts.md C4). -/
def shownAfter (shown : Bool) (decimal : Byte) (p : Nat) (d : Byte) : Bool :=
  shown || p == decimal.toNat || d != 0

/-- The characters plotted for one position: the digit or a space, then the point if it stands here (R123). -/
def positionChars (shown : Bool) (decimal : Byte) (p : Nat) (d : Byte) : List Byte :=
  (if shown then 0x30 + d else 0x20) :: (if decimal != 0 && p == decimal.toNat then [0x2E] else [])

/-- The characters of `DSP.PRINTNUM` for the positions below `n`, most significant first (R123). -/
def numberChars (decimal : Byte) : Nat → Word → Bool → List Byte
  | 0, _, _ => []
  | p + 1, v, shown =>
    let (v', d) := takeDigit v p
    let shown' := shownAfter shown decimal p d
    positionChars shown' decimal p d ++ numberChars decimal p v' shown'

/-- `STC`, "tuning has completed" (R22). -/
def stcSet (c : Config) (rreg : Vector Word 6) : Bool := (bankGet rreg c.rStatus &&& c.mStc) != 0

/-- `RDSR`, "radio-data available" (R22). -/
def rdsrSet (c : Config) (rreg : Vector Word 6) : Bool := (bankGet rreg c.rStatus &&& c.mRdsr) != 0

/-- The group type/version field matches the station-name pattern (R158, R81). -/
def psGroup (c : Config) (blkb : Word) : Bool := (blkb &&& c.psMask) == c.psMatch

end Sys2Proof.Machine
end

