-- ==== Sys2Proof/Machine/Ops.lean ====
section
/-!
DEFINITION. The shared operations on the state: the five line micro-operations (spec/40_bus.md R90 to R94), the
bus procedures built on them (R96 to R100), the register updates, and how a command begins and ends (R12, R181).
There is no trap entry and no trap return to write: the block raises nothing, saves nothing and has one
mode (spec/60_exceptions.md R180, R185, R187).
-/

namespace Sys2Proof.Machine

/-! ### Observation and the command stream -/

/-- `trace`: the line events in the order performed, since reset (R95). -/
def State.trace (s : State) : List Event := s.traceRev.reverse

/-- The bytes from `cp` on: where the next command is read (R60). -/
def State.fetch (s : State) : List Byte := s.stream.drop s.cp

/-- `cp <- cp + len` (R12). -/
def advance (len : Nat) (s : State) : State := { s with cp := s.cp + len }

/-- The checks before a command runs: the configuration first, then the operands (R183). -/
def guarded (i : Instr) (s : State) (k : State) : Host.Outcome State Fault Refusal :=
  if configOk s.cfg then
    if i.wellFormed s.cfg.nGlyph then .next k else .refused .reservedOperand
  else .refused .badConfiguration

/-- A command that runs to its end: check, effect, then `cp` moves past it (R12, R60, R181). -/
def perform (i : Instr) (s : State) (effect : State → State) : Host.Outcome State Fault Refusal :=
  guarded i s (advance i.length (effect s))

/-! ### Micro-operations (R90 to R94) -/

/-- `sda_low` (R90). -/
def sdaLow (s : State) : State := { s with sdaDrv := true, traceRev := .sdaLow :: s.traceRev }

/-- `sda_rel` (R91). -/
def sdaRel (s : State) : State := { s with sdaDrv := false, traceRev := .sdaRel :: s.traceRev }

/-- `scl_low` (R92). -/
def sclLow (s : State) : State := { s with sclDrv := true, traceRev := .sclLow :: s.traceRev }

/-- `scl_rel` (R93). -/
def sclRel (s : State) : State := { s with sclDrv := false, traceRev := .sclRel :: s.traceRev }

/-- The environment's current drive of the data line: the next scripted answer, or a free value (R47, U10, log 5). -/
def envDrive (s : State) : Bool :=
  match s.answers with
  | e :: _ => e
  | [] => Config.freeDrive s.sampleNo

/-- The bit `sample` returns: `e AND (SDA_DRV = 0)` (R94). -/
def sampledBit (s : State) : Bool := envDrive s && !s.sdaDrv

/-- What `sample` does to the state: the event; the answer is used up (R94). -/
def sampleStep (s : State) : State :=
  { s with
    answers := s.answers.tail
    sampleNo := s.sampleNo + 1
    traceRev := .sample (sampledBit s) :: s.traceRev }

/-! ### Bus procedures (R96 to R100) -/

/-- A clock pulse: clock-high then clock-low (R9). -/
def clockPulse (s : State) : State := sclLow (sclRel s)

/-- One written bit-time: set the data line, then one clock pulse (R71). -/
def putBit (s : State) (v : Bool) : State := clockPulse (if v then sdaRel s else sdaLow s)

/-- `WRITE(b)`: eight bits most significant first, then the acknowledgment bit-time, not inspected (R96). -/
def write (b : Byte) (s : State) : State := clockPulse (sdaRel ((msbBits b).foldl putBit s))

/-- Write the bytes of a list in order. -/
def writeAll (bs : List Byte) (s : State) : State := bs.foldl (fun s b => write b s) s

/-- The eight data bit-times of `READ`: sample at clock-high, shift in (R97). -/
def readBits : Nat → Byte → State → Byte × State
  | 0, d, s => (d, s)
  | n + 1, d, s =>
    let up := sclRel s
    readBits n (shiftIn d (sampledBit up)) (sclLow (sampleStep up))

/-- `READ(k)`: the byte received and the state after it. `RES` is not written here, and the data line is
not released after an acknowledged byte (R97, log 15). -/
def read (k : Bool) (s : State) : Byte × State :=
  let r := readBits 8 0 (sdaRel s)
  (r.1, clockPulse (if k then sdaLow r.2 else r.2))

/-- `START(a)` (R98). -/
def start (a : Byte) (s : State) : State := write a (sclLow (sdaLow s))

/-- `RESTART(a)`: the data line is released first, then the clock (R99, log 14). -/
def restart (a : Byte) (s : State) : State := start a (sclRel (sdaRel s))

/-- `STOP()` (R100). -/
def stop (s : State) : State := sdaRel (sclRel (sdaLow s))

/-! ### Register updates -/

/-- Write `RES` (R15). -/
def setRes (v : Word) (s : State) : State := { s with res := v }

/-- Write the cursor shadow (R16). -/
def setCursor (col row : Byte) (s : State) : State := { s with curX := col, curY := row }

/-- Write `CUR_X` (R16). -/
def setCurX (col : Byte) (s : State) : State := { s with curX := col }

/-- `WREG[i]`. -/
def wregAt (s : State) (i : Nat) : Word := bankGet s.wreg i

/-- `WREG[i] <- v` (R19). -/
def setWreg (i : Nat) (v : Word) (s : State) : State := { s with wreg := bankSet s.wreg i v }

/-- `RREG[i]`. -/
def rregAt (s : State) (i : Nat) : Word := bankGet s.rreg i

/-- `RREG[i] <- v` (R21). -/
def setRreg (i : Nat) (v : Word) (s : State) : State := { s with rreg := bankSet s.rreg i v }

/-- Write `TSTATE` (R25). -/
def setTstate (t : TState) (s : State) : State := { s with tstate := t }

/-- `sleep(t)`: nothing changes and no event is produced (R8, R188). -/
def sleep (_t : Nat) (s : State) : State := s

end Sys2Proof.Machine
end

