-- ==== Sys2Proof/Machine/Bus.lean ====
section
/-!
DEFINITION. BUS family (spec/40_bus.md): the meanings of the five bus operations, each one command over the bus
procedures of Ops.lean. No framing is checked: each runs from whatever latch state it finds (R101).
-/

namespace Sys2Proof.Machine

/-- `BUS.START a` (R98). -/
def execBusStart (a : Byte) (s : State) : Host.Outcome State Fault Refusal :=
  perform (.busStart a) s (start a)

/-- `BUS.WRITE b` (R96). -/
def execBusWrite (b : Byte) (s : State) : Host.Outcome State Fault Refusal :=
  perform (.busWrite b) s (write b)

/-- The command's effect: `RES <- zext_16(READ(k))` (R97). -/
def busReadEffect (k : Byte) (s : State) : State :=
  let r := read (k == 1) s
  setRes (r.1.zeroExtend 16) r.2

/-- `BUS.READ k` (R97). -/
def execBusRead (k : Byte) (s : State) : Host.Outcome State Fault Refusal :=
  perform (.busRead k) s (busReadEffect k)

/-- `BUS.RESTART a` (R99). -/
def execBusRestart (a : Byte) (s : State) : Host.Outcome State Fault Refusal :=
  perform (.busRestart a) s (restart a)

/-- `BUS.STOP` (R100). -/
def execBusStop (s : State) : Host.Outcome State Fault Refusal :=
  perform .busStop s stop

end Sys2Proof.Machine
end

