-- ==== Sys2Proof/Machine/Display.lean ====
section
/-!
DEFINITION. DSP family (spec/41_display.md): the internal procedures DATA_OPEN, CMD_OPEN, SETCURSOR_SEQ, WRAP,
PLOT and the meanings of the eight display operations. Only `WRITE`, `START`, `STOP` touch the pins (R110).
-/

namespace Sys2Proof.Machine

/-- `CMD_OPEN()` (R113, log 17). -/
def cmdOpen (s : State) : State := write s.cfg.ctrlCmd (start (addrByte s.cfg.addrDisp false) s)

/-- `DATA_OPEN()` (R113, log 17). -/
def dataOpen (s : State) : State := write s.cfg.ctrlData (start (addrByte s.cfg.addrDisp false) s)

/-- `SETCURSOR_SEQ(col, row)`: one command transaction, then the shadow takes the operands unmasked (R112). -/
def setCursorSeq (col row : Byte) (s : State) : State :=
  setCursor col row (stop (writeAll (cursorBytes s.cfg col row) (cmdOpen s)))

/-- `WRAP()`: close the data transaction, next page at column 0, reopen (R117). -/
def wrap (s : State) : State := dataOpen (setCursorSeq 0 (s.curY + 1) (stop s))

/-- `PLOT(c)`: six bytes on the current page, cursor advanced by 6, then the wrap test (R116, R117, log 19). -/
def plot (c : Byte) (s : State) : State :=
  let sent := writeAll (glyphBytes s.cfg c) s
  let moved := setCurX (sent.curX + 6) sent
  if wrapLimit < moved.curX then wrap moved else moved

/-- `PLOT` of each character in order (R121). -/
def plotAll (cs : List Byte) (s : State) : State := cs.foldl (fun s c => plot c s) s

/-- A data transaction with the characters of a string. -/
def printText (cs : List Byte) (s : State) : State := stop (plotAll cs (dataOpen s))

/-- `n` turns of CLEARLINE's loop: one zero byte and `CUR_X <- CUR_X + 1` each (R118). -/
def clearCols : Nat → State → State
  | 0, s => s
  | n + 1, s =>
    let sent := write 0x00 s
    clearCols n (setCurX (sent.curX + 1) sent)

/-- `DSP.CLEARLINE`'s effect: `DISP_COLS - CUR_X` zero bytes, none when `CUR_X >= DISP_COLS` (R118), then the
cursor to column 0 of the next page. -/
def clearLine (s : State) : State :=
  let cleared := stop (clearCols (s.cfg.dispCols - s.curX.toNat) (dataOpen s))
  setCursorSeq 0 (cleared.curY + 1) cleared

/-- `DSP.INIT`'s effect: one command transaction with the init ROM's bytes; the cursor shadow stays (R111, log 18). -/
def initDisplay (s : State) : State := stop (writeAll s.cfg.initSeq (cmdOpen s))

/-- `DSP.CLEARSCREEN`'s effect: home, then four times CLEARLINE (R119). -/
def clearScreen (s : State) : State := clearLine (clearLine (clearLine (clearLine (setCursorSeq 0 0 s))))

/-- `DSP.PRINTCHAR`'s effect: one character in a data transaction of its own (R120, log 20). -/
def printChar (c : Byte) (s : State) : State := stop (plot c (dataOpen s))

/-- `DSP.PRINTLINE`'s effect: the string, then CLEARLINE (R122, log 21). -/
def printLine (cs : List Byte) (s : State) : State := clearLine (printText cs s)

/-- `DSP.PRINTNUM`'s effect: one data transaction with the number's characters (R123, log 22). -/
def printNumber (value : Word) (digits decimal : Byte) (s : State) : State :=
  printText (numberChars decimal digits.toNat value false) s

/-- `DSP.INIT` (R111). -/
def execDspInit (s : State) : Host.Outcome State Fault Refusal :=
  perform .dspInit s initDisplay

/-- `DSP.SETCURSOR col, row` (R112). -/
def execDspSetcursor (col row : Byte) (s : State) : Host.Outcome State Fault Refusal :=
  perform (.dspSetcursor col row) s (setCursorSeq col row)

/-- `DSP.CLEARLINE` (R118). -/
def execDspClearline (s : State) : Host.Outcome State Fault Refusal :=
  perform .dspClearline s clearLine

/-- `DSP.CLEARSCREEN` (R119). -/
def execDspClearscreen (s : State) : Host.Outcome State Fault Refusal :=
  perform .dspClearscreen s clearScreen

/-- `DSP.PRINTCHAR c` (R120). -/
def execDspPrintchar (c : Byte) (s : State) : Host.Outcome State Fault Refusal :=
  perform (.dspPrintchar c) s (printChar c)

/-- `DSP.PRINTSTR s` (R121). -/
def execDspPrintstr (cs : List Byte) (s : State) : Host.Outcome State Fault Refusal :=
  perform (.dspPrintstr cs) s (printText cs)

/-- `DSP.PRINTLINE s` (R122). -/
def execDspPrintline (cs : List Byte) (s : State) : Host.Outcome State Fault Refusal :=
  perform (.dspPrintline cs) s (printLine cs)

/-- `DSP.PRINTNUM value, digits, decimal` (R123). -/
def execDspPrintnum (value : Word) (digits decimal : Byte) (s : State) : Host.Outcome State Fault Refusal :=
  perform (.dspPrintnum value digits decimal) s (printNumber value digits decimal)

end Sys2Proof.Machine
end

