-- ==== Sys2Proof/Machine/Tuner.lean ====
section
/-!
DEFINITION. TUN family (spec/42_tuner.md): the internal procedures WRITE_ALL, WRITE_ONE, READ_ALL, CLEAR_NAME,
SETVOL_SEQ, RDS_DECODE and the meanings of the seven tuner operations.
-/

namespace Sys2Proof.Machine

/-- The bytes of the whole writable bank, registers ascending, high byte first (R141, R48). -/
def bankBytes (bank : Vector Word 6) : List Byte :=
  [0, 1, 2, 3, 4, 5].flatMap (fun i => [hiByte (bankGet bank i), loByte (bankGet bank i)])

/-- `WRITE_ALL()` (R141, log 23). -/
def writeBank (s : State) : State :=
  stop (writeAll (bankBytes s.wreg) (start (addrByte s.cfg.addrTunSeq false) s))

/-- `WRITE_ONE(i)`: register address `0x02 + i`, then the register, high byte first (R142, log 23). -/
def writeOne (i : Nat) (s : State) : State :=
  stop (writeAll [BitVec.ofNat 8 (0x02 + i), hiByte (wregAt s i), loByte (wregAt s i)]
    (start (addrByte s.cfg.addrTunIdx false) s))

/-- One turn of READ_ALL's loop: high byte acknowledged, low byte acknowledged but for the last (R143). -/
def readReg (s : State) (j : Nat) : State :=
  let h := read true s
  let l := read (decide (j < 5)) h.2
  setRreg j (joinBytes h.1 l.1) l.2

/-- `READ_ALL()` (R143, log 23). -/
def readBank (s : State) : State :=
  stop ([0, 1, 2, 3, 4, 5].foldl readReg (start (addrByte s.cfg.addrTunSeq true) s))

/-- A blank: the space character (R23, log 33). -/
def blank : Byte := 0x20

/-- A name buffer whose slots 0 to 7 are blanks and whose `NAME[8]` is as it was (R144). -/
def blankSlots (name : Vector Byte 9) : Vector Byte 9 := (Vector.replicate 8 blank).push (slotGet name 8)

/-- `CLEAR_NAME()`: slots 0 to 7 become blanks; `NAME[8]` and `CAND` stay (R144). -/
def clearName (s : State) : State := { s with name := blankSlots s.name }

/-- `SETVOL_SEQ(level)` (R146). -/
def setVolSeq (level : Byte) (s : State) : State :=
  writeOne s.cfg.rVol (setWreg s.cfg.rVol (mergeVol s.cfg (wregAt s s.cfg.rVol) level) s)

/-- Set the bits of `m` in `WREG[i]`, in the cache only. -/
def setBits (i : Nat) (m : Word) (s : State) : State := setWreg i (wregAt s i ||| m) s

/-- Clear the bits of `m` in `WREG[i]`, in the cache only. -/
def clearBits (i : Nat) (m : Word) (s : State) : State := setWreg i (wregAt s i &&& ~~~m) s

/-- One character slot of RDS_DECODE on the buffers `(NAME, CAND)`: promote on a repeat match, else remember
as candidate (R158). -/
def debounceSlot (bufs : Vector Byte 9 × Vector Byte 9) (slot : Nat) (c : Byte) : Vector Byte 9 × Vector Byte 9 :=
  if slotGet bufs.2 slot = c then (slotSet bufs.1 slot c, bufs.2) else (bufs.1, slotSet bufs.2 slot c)

/-- One decode cycle on the buffers `(NAME, CAND)` for the read bank `rreg` (R158, log 26). -/
def decodeGroup (c : Config) (rreg : Vector Word 6) (bufs : Vector Byte 9 × Vector Byte 9) :
    Vector Byte 9 × Vector Byte 9 :=
  let b := bankGet rreg c.rBlkb
  let w := bankGet rreg c.rBlkd
  if psGroup c b then
    let off := (b.extractLsb' 0 2).toNat
    debounceSlot (debounceSlot bufs (2 * off) (hiByte w)) (2 * off + 1) (loByte w)
  else bufs

/-- `RDS_DECODE()` (R158). -/
def rdsDecode (s : State) : State :=
  let bufs := decodeGroup s.cfg s.rreg (s.name, s.cand)
  { s with name := bufs.1, cand := bufs.2 }

/-- The completion branch of R150: both flags cleared in the cache, no write transfer (log 25). -/
def retireFlags (s : State) : State :=
  let cleared := clearBits s.cfg.rSeek s.cfg.mSeek (clearBits s.cfg.rChan s.cfg.mTune s)
  if s.tstate = .seeking ∨ s.tstate = .tuning then setTstate .idle cleared else cleared

/-- The radio-data branch of R150: toggle the request flag, each half sent, then decode (log 25). -/
def requestAndDecode (s : State) : State :=
  let clear := writeOne s.cfg.rRdsreq (clearBits s.cfg.rRdsreq s.cfg.mRdsreq s)
  let set := writeOne s.cfg.rRdsreq (setBits s.cfg.rRdsreq s.cfg.mRdsreq clear)
  rdsDecode set

/-- `TUN.UPDATE`'s effect: poll, retire finished requests, radio-data part (R150). -/
def update (s : State) : State :=
  let polled := readBank s
  let retired := if stcSet polled.cfg polled.rreg then retireFlags polled else polled
  if rdsrSet retired.cfg retired.rreg then requestAndDecode retired else retired

/-- `TUN.INIT`'s effect: name cleared, the bank written with the reset bit set, then clear, then the starting
volume (R145, log 24). -/
def initTuner (s : State) : State :=
  let reset := setTstate .softreset (writeBank (setBits s.cfg.rReset s.cfg.mReset (clearName s)))
  let ready := setTstate .idle (writeBank (clearBits reset.cfg.rReset reset.cfg.mReset reset))
  setVolSeq ready.cfg.startVolume ready

/-- `TUN.SETCHAN`'s effect: name blanked before any line event, field and flag merged, register sent (R147). -/
def setChannel (chan : Word) (s : State) : State :=
  let merged := setWreg s.cfg.rChan (mergeChan s.cfg (wregAt s s.cfg.rChan) chan) (clearName s)
  setTstate .tuning (writeOne s.cfg.rChan merged)

/-- `TUN.SEEK`'s effect: name blanked before any line event, flag set, register sent (R148). -/
def seekNext (s : State) : State :=
  setTstate .seeking (writeOne s.cfg.rSeek (setBits s.cfg.rSeek s.cfg.mSeek (clearName s)))

/-- One turn of `TUN.WAIT`: sleep, poll; `cp` moves past the command when the poll shows `STC` (R159, log 4). -/
def waitTurn (s : State) : State :=
  let polled := update (sleep s.cfg.pollInterval s)
  if stcSet polled.cfg polled.rreg then advance Instr.tunWait.length polled else polled

/-- `TUN.FREQ`'s effect (R160, log 27). -/
def frequency (s : State) : State := setRes (freq (chanRd s.cfg s.rreg)) s

/-- `TUN.INIT` (R145). -/
def execTunInit (s : State) : Host.Outcome State Fault Refusal :=
  perform .tunInit s initTuner

/-- `TUN.SETVOL level` (R146). -/
def execTunSetvol (level : Byte) (s : State) : Host.Outcome State Fault Refusal :=
  perform (.tunSetvol level) s (setVolSeq level)

/-- `TUN.SETCHAN chan` (R147). -/
def execTunSetchan (chan : Word) (s : State) : Host.Outcome State Fault Refusal :=
  perform (.tunSetchan chan) s (setChannel chan)

/-- `TUN.SEEK` (R148). -/
def execTunSeek (s : State) : Host.Outcome State Fault Refusal :=
  perform .tunSeek s seekNext

/-- `TUN.WAIT`: one turn of the unbounded loop is one step; while the command has not ended, `cp` stays and the
next step is the next turn (R159, R184, log 4). -/
def execTunWait (s : State) : Host.Outcome State Fault Refusal :=
  guarded .tunWait s (waitTurn s)

/-- `TUN.UPDATE` (R150). -/
def execTunUpdate (s : State) : Host.Outcome State Fault Refusal :=
  perform .tunUpdate s update

/-- `TUN.FREQ` (R160). -/
def execTunFreq (s : State) : Host.Outcome State Fault Refusal :=
  perform .tunFreq s frequency

end Sys2Proof.Machine
end

