-- ==== Sys2Proof/Machine/Dispatch.lean ====
section
/-!
DEFINITION. The one match from an instruction to its meaning, one arm per row of spec/opcode_table.json.
-/

namespace Sys2Proof.Machine

def exec (i : Instr) (s : State) : Host.Outcome State Fault Refusal :=
  match i with
  | .busStart a => Sys2Proof.Machine.execBusStart a s
  | .busWrite b => Sys2Proof.Machine.execBusWrite b s
  | .busRead k => Sys2Proof.Machine.execBusRead k s
  | .busRestart a => Sys2Proof.Machine.execBusRestart a s
  | .busStop => Sys2Proof.Machine.execBusStop s
  | .dspInit => Sys2Proof.Machine.execDspInit s
  | .dspSetcursor col row => Sys2Proof.Machine.execDspSetcursor col row s
  | .dspClearline => Sys2Proof.Machine.execDspClearline s
  | .dspClearscreen => Sys2Proof.Machine.execDspClearscreen s
  | .dspPrintchar c => Sys2Proof.Machine.execDspPrintchar c s
  | .dspPrintstr cs => Sys2Proof.Machine.execDspPrintstr cs s
  | .dspPrintline cs => Sys2Proof.Machine.execDspPrintline cs s
  | .dspPrintnum value digits decimal => Sys2Proof.Machine.execDspPrintnum value digits decimal s
  | .tunInit => Sys2Proof.Machine.execTunInit s
  | .tunSetvol level => Sys2Proof.Machine.execTunSetvol level s
  | .tunSetchan chan => Sys2Proof.Machine.execTunSetchan chan s
  | .tunSeek => Sys2Proof.Machine.execTunSeek s
  | .tunWait => Sys2Proof.Machine.execTunWait s
  | .tunUpdate => Sys2Proof.Machine.execTunUpdate s
  | .tunFreq => Sys2Proof.Machine.execTunFreq s

end Sys2Proof.Machine
end

