-- ==== Sys2Proof/Machine/Fetch.lean ====
section
/-!
DEFINITION. Reading the next command: the checks of spec/60_exceptions.md R183 in their order, and decoding at `cp`
(spec/30_encoding.md R60, R68). Also how a host places a command where the step reads it.
-/

namespace Sys2Proof.Machine

/-- The refusal that a decode result stands for (R181). -/
def refusalOf : DecodeError → Refusal
  | .reservedOpcode => .reservedOpcode
  | .truncated => .truncated
  | .reservedOperand => .reservedOperand

/-- The next command: a bad configuration is refused before any command is decoded (R183); at the end of the
stream there is none, the block is idle (R68, log 3); else the command decoded at `cp`, or the reason it is none (R60). -/
def nextCommand (s : State) : Except Refusal (Option Instr) :=
  if configOk s.cfg then
    if s.stream.length ≤ s.cp then .ok none
    else
      match decodeLegal s.cfg.nGlyph s.fetch with
      | .error e => .error (refusalOf e)
      | .ok i => .ok (some i)
  else .error .badConfiguration

/-- Put bytes into the command stream at `cp`, over what stood there (log 2). -/
def placeAt (stream : List Byte) (cp : Nat) (bytes : List Byte) : List Byte :=
  stream.take cp ++ List.replicate (cp - stream.length) 0 ++ bytes ++ stream.drop (cp + bytes.length)

/-- The state with bytes placed at `cp`. -/
def placeAtCp (s : State) (bytes : List Byte) : State := { s with stream := placeAt s.stream s.cp bytes }

end Sys2Proof.Machine
end

