-- ==== Sys2Proof/Machine/Step.lean ====
section
/-!
DEFINITION. One step of the machine, and the same state with a given command next.
-/

namespace Sys2Proof.Machine

/-- One step: read the next command and run it; where there is none, nothing changes (R60, R68, log 3); where
it is no legal command, or the configuration is bad, the step is refused (R181, R183). -/
def step (s : State) : Host.Outcome State Fault Refusal :=
  match nextCommand s with
  | .error r => .refused r
  | .ok none => .next s
  | .ok (some i) => exec i s

/-- The state with a table word's instruction where `step` reads its next command (log 2). -/
def State.withFetchWord (s : State) (nbits w : Nat) : State := placeAtCp s (tableBytes nbits w)

end Sys2Proof.Machine
end

