-- ==== Sys2Proof/Machine/Frames.lean ====
section
/-!
DEFINITION. The wire formats of spec/30_encoding.md Part B as lists of line events: bit-times (R71), conditions
(R72), bus transactions (R70), display transactions (R75), tuner frames (R78, R79, R80), and a text as the
display transactions that carry it (R116, R117). The step does not use them; claims are stated in them.
-/

namespace Sys2Proof.Machine

/-- A written bit-time (R71). -/
def evBit (v : Bool) : List Event := [if v then .sdaRel else .sdaLow, .sclRel, .sclLow]

/-- A written byte: eight bits most significant first, then the released acknowledgment bit-time (R71, R96). -/
def evWrite (b : Byte) : List Event := (msbBits b).flatMap evBit ++ evBit true

/-- A start condition (R72). -/
def evStart : List Event := [.sdaLow, .sclLow]

/-- A repeated start (R72, R99). -/
def evRestart : List Event := [.sdaRel, .sclRel] ++ evStart

/-- A stop condition (R72). -/
def evStop : List Event := [.sdaLow, .sclRel, .sdaRel]

/-- A read bit whose sample returned `v` (R71). -/
def evReadBit (v : Bool) : List Event := [.sclRel, .sample v, .sclLow]

/-- A read byte: release, its bits, then the acknowledgment bit-time, driven low when `k` (R71, R97). -/
def evRead (bits : List Bool) (k : Bool) : List Event :=
  [.sdaRel] ++ bits.flatMap evReadBit ++ (if k then [.sdaLow] else []) ++ [.sclRel, .sclLow]

/-- `S A(a) W(b1) ... W(bn) P` (R70). -/
def evTransaction (a : Byte) (payload : List Byte) : List Event :=
  evStart ++ evWrite a ++ payload.flatMap evWrite ++ evStop

/-- A display transaction on the command channel (R75). -/
def evDisplayCmd (c : Config) (payload : List Byte) : List Event :=
  evTransaction (addrByte c.addrDisp false) (c.ctrlCmd :: payload)

/-- A display transaction on the data channel (R75). -/
def evDisplayData (c : Config) (payload : List Byte) : List Event :=
  evTransaction (addrByte c.addrDisp false) (c.ctrlData :: payload)

/-- The cursor transaction of SETCURSOR_SEQ (R112). -/
def evCursor (c : Config) (col row : Byte) : List Event := evDisplayCmd c (cursorBytes c col row)

/-- The tuner write-all frame for a bank (R78). -/
def evWriteBank (c : Config) (w : Vector Word 6) : List Event :=
  evTransaction (addrByte c.addrTunSeq false)
    [hiByte (bankGet w 0), loByte (bankGet w 0), hiByte (bankGet w 1), loByte (bankGet w 1),
     hiByte (bankGet w 2), loByte (bankGet w 2), hiByte (bankGet w 3), loByte (bankGet w 3),
     hiByte (bankGet w 4), loByte (bankGet w 4), hiByte (bankGet w 5), loByte (bankGet w 5)]

/-- The tuner write-one frame for cache index `i` holding `v` (R79). -/
def evWriteOne (c : Config) (i : Nat) (v : Word) : List Event :=
  evTransaction (addrByte c.addrTunIdx false) [BitVec.ofNat 8 (0x02 + i), hiByte v, loByte v]

/-- The tuner read-all frame for the 96 sampled bits, eight to a byte, twelve bytes, the last not
acknowledged (R80). -/
def evReadBank (c : Config) (bits : List Bool) : List Event :=
  evStart ++ evWrite (addrByte c.addrTunSeq true) ++
    (List.range 12).flatMap (fun n => evRead ((bits.drop (8 * n)).take 8) (decide (n < 11))) ++ evStop

/-- A byte from its eight bits, most significant first (R48). -/
def byteOf (bits : List Bool) : Byte := bits.foldl shiftIn 0

/-- The register value that the sampled bits from index `16 * j` on spell, high byte first (R48, R80). -/
def wordOf (bits : List Bool) (j : Nat) : Word :=
  joinBytes (byteOf ((bits.drop (16 * j)).take 8)) (byteOf ((bits.drop (16 * j + 8)).take 8))

/-- The six registers that the 96 sampled bits of a read-all spell (R80, R143). -/
def bankOf (bits : List Bool) : Vector Word 6 :=
  #v[wordOf bits 0, wordOf bits 1, wordOf bits 2, wordOf bits 3, wordOf bits 4, wordOf bits 5]

/-- The answers the environment gives to the next `n` samples: the scripted ones, then free ones (R47, log 5). -/
def drivesFrom : Nat → List Bool → Nat → List Bool
  | 0, _, _ => []
  | n + 1, as, k => (match as with | e :: _ => e | [] => Config.freeDrive k) :: drivesFrom n as.tail (k + 1)

/-- The answers of a state's environment to its next `n` samples. -/
def State.nextDrives (s : State) (n : Nat) : List Bool := drivesFrom n s.answers s.sampleNo

/-- The cursor after one character (R116, R117, R134). -/
def cursorStep (p : Byte × Byte) : Byte × Byte :=
  if wrapLimit < p.1 + 6 then (0, p.2 + 1) else (p.1 + 6, p.2)

/-- The cursor after `n` characters. -/
def cursorAfter : Nat → Byte × Byte → Byte × Byte
  | 0, p => p
  | n + 1, p => cursorAfter n (cursorStep p)

/-- A text from column `x` on as the groups of characters that travel in one data transaction each: a
group ends with the character that takes the cursor past column 122 (R117). There is always a last
group, which may be empty. -/
def pageGroups : Byte → List Byte → List Byte × List (List Byte)
  | _, [] => ([], [])
  | x, ch :: rest =>
    if wrapLimit < x + 6 then ([ch], (pageGroups 0 rest).1 :: (pageGroups 0 rest).2)
    else (ch :: (pageGroups (x + 6) rest).1, (pageGroups (x + 6) rest).2)

/-- The data bytes of a group of characters: six a character (R77). -/
def groupBytes (c : Config) (g : List Byte) : List Byte := g.flatMap (glyphBytes c)

/-- The transactions after the first group: for each, the cursor to column 0 of the next page, then the
data transaction (R117). -/
def evPages (c : Config) : Byte → List (List Byte) → List Event
  | _, [] => []
  | y, g :: gs => evCursor c 0 (y + 1) ++ evDisplayData c (groupBytes c g) ++ evPages c (y + 1) gs

/-- The events of printing a text from cursor `(x, y)` (R121, R117). -/
def evText (c : Config) (x y : Byte) (cs : List Byte) : List Event :=
  evDisplayData c (groupBytes c (pageGroups x cs).1) ++ evPages c y (pageGroups x cs).2

/-- The decimal digit of a value at position `p`, by division (R123). -/
def digitAt (value : Word) (p : Nat) : Nat := value.toNat / 10 ^ p % 10

/-- The digit at `p` is shown, not blanked: a nonzero digit or the decimal position stands at `p` or left of it,
inside the field (R123). -/
def digitShown (value : Word) (digits : Nat) (decimal : Byte) (p : Nat) : Bool :=
  (List.range digits).any (fun q => p ≤ q && (digitAt value q != 0 || q == decimal.toNat))

/-- The characters of a formatted number, by division and not by repeated subtraction (R123). -/
def numberText (value : Word) (digits : Nat) (decimal : Byte) : List Byte :=
  (List.range digits).reverse.flatMap (fun p =>
    (if digitShown value digits decimal p then BitVec.ofNat 8 (0x30 + digitAt value p) else 0x20) ::
      (if decimal != 0 && p == decimal.toNat then [0x2E] else []))

/-- The events of CLEARLINE from cursor `(x, y)` (R118). -/
def evClearLine (c : Config) (x y : Byte) : List Event :=
  evDisplayData c (List.replicate (c.dispCols - x.toNat) 0x00) ++ evCursor c 0 (y + 1)

end Sys2Proof.Machine
end

