-- ==== Sys2Proof/Machine/Wire.lean ====
section
/-!
DEFINITION. The wire: latches replayed from a trace, line levels, the wire view (spec/40_bus.md R94, R95), and the
decoding of levels into start, stop, bits and bytes (spec/30_encoding.md R74). The step does not use them;
claims about what a slave sees are stated in them. The environment's drive between samples is not
recorded in the trace, so the level functions take it as an argument (log 31).
-/

namespace Sys2Proof.Machine

/-- What an event does to the latches `(SDA_DRV, SCL_DRV)` (R90 to R94). -/
def latchStep (l : Bool × Bool) : Event → Bool × Bool
  | .sdaLow => (true, l.2)
  | .sdaRel => (false, l.2)
  | .sclLow => (l.1, true)
  | .sclRel => (l.1, false)
  | .sample _ => l

/-- The latches after a list of events. -/
def replay (l : Bool × Bool) (evs : List Event) : Bool × Bool := evs.foldl latchStep l

/-- The state after a list of line events: latches and trace follow them, nothing else changes. -/
def emit (evs : List Event) (s : State) : State :=
  { s with
    sdaDrv := (replay (s.sdaDrv, s.sclDrv) evs).1
    sclDrv := (replay (s.sdaDrv, s.sclDrv) evs).2
    traceRev := evs.reverse ++ s.traceRev }

/-- The state after `n` answers of the environment have been used up (log 5). -/
def consume (n : Nat) (s : State) : State :=
  { s with answers := s.answers.drop n, sampleNo := s.sampleNo + n }

/-- `SDA_DRV` at each `SclRel` of a list of events: what an observer sees at clock-high (R103). -/
def sdaAtClockHigh : Bool × Bool → List Event → List Bool
  | _, [] => []
  | l, e :: rest => (if e = .sclRel then [(latchStep l e).1] else []) ++ sdaAtClockHigh (latchStep l e) rest

/-- The levels `(scl, sda)`: `scl = (SCL_DRV = 0)`, `sda = (SDA_DRV = 0) AND e` (R74). -/
def lineLevels (l : Bool × Bool) (e : Bool) : Bool × Bool := (!l.2, !l.1 && e)

/-- The levels after each event, each paired with the environment's drive at that moment. -/
def levelsAfter : Bool × Bool → List (Event × Bool) → List (Bool × Bool)
  | _, [] => []
  | l, (ev, e) :: rest => lineLevels (latchStep l ev) e :: levelsAfter (latchStep l ev) rest

/-- Leave out each element equal to the one before it. -/
def dropRepeats : Bool × Bool → List (Bool × Bool) → List (Bool × Bool)
  | _, [] => []
  | prev, p :: rest => if p = prev then dropRepeats prev rest else p :: dropRepeats p rest

/-- The wire view of events from latches `l`, repeated level pairs removed (R95). -/
def wireView (l : Bool × Bool) (e0 : Bool) (evs : List (Event × Bool)) : List (Bool × Bool) :=
  lineLevels l e0 :: dropRepeats (lineLevels l e0) (levelsAfter l evs)

/-- What the levels spell (R74). -/
inductive Symbol where
  | start
  | stop
  | bit (b : Bool)
  deriving DecidableEq, Repr

/-- Decode levels: a start is a fall of `sda` while `scl = 1`, a stop a rise of `sda` while `scl = 1`, a bit
the value of `sda` during an interval with `scl = 1` that holds neither. `fresh` says that the current
interval has held neither so far (R74). DESIGN CHOICE (log 36): the bit is given when the clock falls, so an interval
still open at the end of the list gives none. -/
def decodeLevels : Bool × Bool → Bool → List (Bool × Bool) → List Symbol
  | _, _, [] => []
  | (c0, d0), fresh, (c1, d1) :: rest =>
    if c0 && c1 && d0 && !d1 then .start :: decodeLevels (c1, d1) false rest
    else if c0 && c1 && !d0 && d1 then .stop :: decodeLevels (c1, d1) false rest
    else if c0 && !c1 then (if fresh then [.bit d0] else []) ++ decodeLevels (c1, d1) true rest
    else decodeLevels (c1, d1) (fresh || !c0) rest

/-- A transaction's parts as a slave reads them (R70, R74). -/
inductive WireItem where
  | start
  | stop
  | byte (data : Byte) (ackBit : Bool)
  deriving DecidableEq, Repr

/-- Group bits in nines from the last start: eight data bits and one acknowledgment bit (R70, R74). DESIGN CHOICE
(log 36), which R74 leaves open: a stop also begins a new group, bits before any start are grouped from the first of
them, and a group that a start, a stop or the end cuts off is dropped. -/
def groupNine : List Bool → List Symbol → List WireItem
  | _, [] => []
  | _, .start :: rest => .start :: groupNine [] rest
  | _, .stop :: rest => .stop :: groupNine [] rest
  | acc, .bit b :: rest =>
    if acc.length = 8 then .byte (byteOf acc) b :: groupNine [] rest else groupNine (acc ++ [b]) rest

/-- What a bus with no slave driving shows of events that begin on the idle bus. -/
def wireItems (evs : List Event) : List WireItem :=
  groupNine [] (decodeLevels (true, true) true (levelsAfter (false, false) (evs.map (fun ev => (ev, true)))))

end Sys2Proof.Machine
end

