-- ==== Sys2Proof/Safety.lean ====
section
/-!
DEFINITION. What the claims about runs are stated in: the invariants of spec/10_state.md R31 and
spec/42_tuner.md R161, bus idleness (R31 (e)), the command families, and runs of several steps.
-/

namespace Sys2Proof.Machine

/-- The bus is idle: both lines released by the block (R31 (e)). -/
def BusIdle (s : State) : Prop := s.sdaDrv = false ∧ s.sclDrv = false

/-- The bits of register `i` of the writable bank that belong to a named field (R20). -/
def namedBits (c : Config) (i : Nat) : Word :=
  (writableFields c).foldl (fun m f => if f.1 = i then m ||| f.2 else m) 0

/-- R31 (a): the terminator is 0; and `CAND[8]`, which no rule writes, is 0 (R24, R30). -/
def TerminatorsZero (s : State) : Prop := slotGet s.name 8 = 0 ∧ slotGet s.cand 8 = 0

/-- R31 (c): every bit of `WREG` outside the named fields equals its `WREG_PRESET` bit. -/
def UnnamedBitsPreset (s : State) : Prop :=
  ∀ i, i < 6 → wregAt s i &&& ~~~(namedBits s.cfg i) = bankGet s.cfg.wregPreset i &&& ~~~(namedBits s.cfg i)

/-- The latches are what the trace since reset makes them (R11, R95). -/
def LatchesFollowTrace (s : State) : Prop := replay (false, false) s.trace = (s.sdaDrv, s.sclDrv)

/-- R161: in `SEEKING` the `SEEK` bit of the cache is set, in `TUNING` the `TUNE` bit is set. -/
def StateMirrorsFlags (s : State) : Prop :=
  (s.tstate = .seeking → wregAt s s.cfg.rSeek &&& s.cfg.mSeek ≠ 0) ∧
  (s.tstate = .tuning → wregAt s s.cfg.rChan &&& s.cfg.mTune ≠ 0)

/-- The answers that samples recorded in a list of events, in order (R94, R95). -/
def sampledBits (evs : List Event) : List Bool :=
  evs.filterMap (fun e => match e with | .sample b => some b | _ => none)

/-- The bank that the n-th poll from a state on will read, counting from 0: its 96 answers (R143, R159). -/
def bankOfPoll (s : State) (n : Nat) : Vector Word 6 := bankOf ((consume (96 * n) s).nextDrives 96)

/-- The next command in the stream is a `TUN.WAIT`, in a legal configuration. -/
def AtWait (s : State) : Prop :=
  configOk s.cfg = true ∧ s.cp < s.stream.length ∧ decode s.fetch = .ok .tunWait

/-- The operations of the BUS family. -/
def isBus : Instr → Bool
  | .busStart _ => true
  | .busWrite _ => true
  | .busRead _ => true
  | .busRestart _ => true
  | .busStop => true
  | .dspInit => false
  | .dspSetcursor _ _ => false
  | .dspClearline => false
  | .dspClearscreen => false
  | .dspPrintchar _ => false
  | .dspPrintstr _ => false
  | .dspPrintline _ => false
  | .dspPrintnum _ _ _ => false
  | .tunInit => false
  | .tunSetvol _ => false
  | .tunSetchan _ => false
  | .tunSeek => false
  | .tunWait => false
  | .tunUpdate => false
  | .tunFreq => false

/-- The operations of the DSP family. -/
def isDsp : Instr → Bool
  | .busStart _ => false
  | .busWrite _ => false
  | .busRead _ => false
  | .busRestart _ => false
  | .busStop => false
  | .dspInit => true
  | .dspSetcursor _ _ => true
  | .dspClearline => true
  | .dspClearscreen => true
  | .dspPrintchar _ => true
  | .dspPrintstr _ => true
  | .dspPrintline _ => true
  | .dspPrintnum _ _ _ => true
  | .tunInit => false
  | .tunSetvol _ => false
  | .tunSetchan _ => false
  | .tunSeek => false
  | .tunWait => false
  | .tunUpdate => false
  | .tunFreq => false

end Sys2Proof.Machine
end

