-- ==== Sys2Proof/Certificates/Slice0/Obligations.lean ====
section
/-!
DEFINITION. The statements about the machine, one `Prop` each, proved elsewhere. OBLIGATIONS.json lists them.
Where a statement gives an instruction's whole next state as a record update of the state before, every
field it does not name is unchanged: that is the instruction's frame. The trace is `State.trace`; the field
`traceRev` is it newest first, so `evs.reverse ++ s.traceRev` is the trace with `evs` after it.
-/

open Sys2Proof Sys2Proof.Machine

/-! ### Encoding -/

/-- The decoder undoes the encoder for every command with legal operands, whatever bytes follow
(30_encoding.md R60 to R65; the numbering is the spec's decision D3). -/
def Obligations.DecodeOfEncode : Prop :=
  ∀ (i : Instr) (n : Nat) (rest : List Byte), i.wellFormed n = true → decode (encode i ++ rest) = .ok i

/-- Each command has one encoding: what decodes to `i` begins with exactly the bytes of `i`, as many as its
length (30_encoding.md R61, R62). -/
def Obligations.EncodeOfDecode : Prop :=
  ∀ (bytes : List Byte) (i : Instr), decode bytes = .ok i → bytes.take i.length = encode i ∧ i.length ≤ bytes.length

/-- R66: the decoder answers reserved-opcode for exactly the opcode bytes the rule lists, whatever follows. -/
def Obligations.ReservedOpcodesAreThoseListed : Prop :=
  ∀ (op : Byte) (rest : List Byte), decode (op :: rest) = .error .reservedOpcode ↔
    op.toNat ≤ 0x0F ∨ (0x15 ≤ op.toNat ∧ op.toNat ≤ 0x1F) ∨ (0x28 ≤ op.toNat ∧ op.toNat ≤ 0x2F) ∨ 0x37 ≤ op.toNat

/-- R68: every command cut off before its last byte decodes to truncated, a string without its terminator too. -/
def Obligations.CutOffCommandsAreTruncated : Prop :=
  ∀ (i : Instr) (n k : Nat), i.wellFormed n = true → 0 < k → k < i.length →
    decode ((encode i).take k) = .error .truncated

/-- Sanity: some of the words of 95_test_vectors.md V16 decode as the table there says. -/
def Obligations.SampleWordsDecode : Prop :=
  decode [0x10, 0x78] = .ok (.busStart 0x78) ∧ decode [0x12, 0x01] = .ok (.busRead 0x01) ∧
  decode [0x25, 0x46, 0x4D, 0x00] = .ok (.dspPrintstr [0x46, 0x4D]) ∧
  decode [0x27, 0x22, 0x29, 0x05, 0x02] = .ok (.dspPrintnum 8745 5 2) ∧ decode [0x32, 0x03, 0xFF] = .ok (.tunSetchan 1023)

/-! ### The step -/

/-- A step runs the decoded command: nothing is added around `exec`, which itself moves `cp` past the command (R60, R12),
or leaves it there for the next turn of a `TUN.WAIT` (log 4). -/
def Obligations.StepRunsDecodedCommand : Prop :=
  ∀ (s : State) (i : Instr), configOk s.cfg = true → s.cp < s.stream.length → decode s.fetch = .ok i →
    i.wellFormed s.cfg.nGlyph = true → step s = exec i s

/-- R183's order of refusal reasons, each with its condition (R181): bad-configuration before any command is
decoded, then reserved-opcode, truncated, reserved-operand. (Decoding gives one error; R66 and R68 say which.) -/
def Obligations.StepRefusesInOrder : Prop :=
  ∀ s : State,
    (configOk s.cfg = false → step s = .refused .badConfiguration) ∧
    (configOk s.cfg = true → s.cp < s.stream.length →
      (decode s.fetch = .error .reservedOpcode → step s = .refused .reservedOpcode) ∧
      (decode s.fetch = .error .truncated → step s = .refused .truncated) ∧
      (∀ i, decode s.fetch = .ok i → i.wellFormed s.cfg.nGlyph = false → step s = .refused .reservedOperand))

/-- R181's closed list: a step that is refused is refused for one of the four reasons, under its condition, and
no step faults (R180). -/
def Obligations.NothingElseIsRefused : Prop :=
  ∀ s : State, (∃ t, step s = .next t) ∨
    (step s = .refused .badConfiguration ∧ configOk s.cfg = false) ∨
    (step s = .refused .reservedOpcode ∧ decode s.fetch = .error .reservedOpcode) ∨
    (step s = .refused .truncated ∧ decode s.fetch = .error .truncated) ∨
    (step s = .refused .reservedOperand ∧ ∃ i, decode s.fetch = .ok i ∧ i.wellFormed s.cfg.nGlyph = false)

/-- Every instruction with legal operands in a legal configuration answers a next state; with an operand in the
reserved column of R67 it is refused as reserved-operand; in a bad configuration it is refused as that. That `exec`
itself refuses, without a step, is the model's DESIGN CHOICE (logs 11, 12): the spec refuses at decoding. -/
def Obligations.ExecRunsLegalRefusesReserved : Prop :=
  ∀ (i : Instr) (s : State),
    (configOk s.cfg = false → exec i s = .refused .badConfiguration) ∧
    (configOk s.cfg = true → i.wellFormed s.cfg.nGlyph = false → exec i s = .refused .reservedOperand) ∧
    (configOk s.cfg = true → i.wellFormed s.cfg.nGlyph = true → ∃ t, exec i s = .next t)

/-- At the end of the stream a step changes nothing: the model's choice (log 3) for R68's "The block is then idle". -/
def Obligations.StepIdlesAtEndOfStream : Prop :=
  ∀ s : State, configOk s.cfg = true → s.stream.length ≤ s.cp → step s = .next s

/-- The reset state of 10_state.md R30 for every configuration record (the values are the spec's decision D30,
log 10), and State.reset is it for the record of logs 7, 8, 9. -/
def Obligations.ResetValues : Prop :=
  (∀ c : Config,
    let s := State.resetWith c
    s.cfg = c ∧ s.sdaDrv = false ∧ s.sclDrv = false ∧ s.res = 0 ∧ s.curX = 0 ∧ s.curY = 0 ∧ s.wreg = c.wregPreset ∧
    (∀ j, j < 6 → bankGet s.rreg j = 0) ∧ (∀ k, k < 8 → slotGet s.name k = 0x20) ∧ slotGet s.name 8 = 0 ∧
    (∀ k, (h : k < 8) → slotGet s.cand k = c.candReset[k]) ∧ slotGet s.cand 8 = 0 ∧ s.tstate = .uninit ∧ s.cp = 0 ∧
    s.trace = []) ∧
  State.reset = State.resetWith Config.default

/-! ### BUS family -/

/-- R96: `BUS.WRITE b` sends the eight bits most significant first, each the data line then one clock pulse, then
one clock pulse with the line released; latches end released and driven low; nothing else changes. -/
def Obligations.BusWriteSendsByte : Prop :=
  ∀ (s : State) (b : Byte), configOk s.cfg = true →
    exec (.busWrite b) s = .next { s with
      cp := s.cp + 2, sdaDrv := false, sclDrv := true, traceRev := (evWrite b).reverse ++ s.traceRev }

/-- R98: `BUS.START a` drives data low, then clock low, then sends the address byte. -/
def Obligations.BusStartSendsAddress : Prop :=
  ∀ (s : State) (a : Byte), configOk s.cfg = true →
    exec (.busStart a) s = .next { s with
      cp := s.cp + 2, sdaDrv := false, sclDrv := true
      traceRev := ([Event.sdaLow, Event.sclLow] ++ evWrite a).reverse ++ s.traceRev }

/-- `BUS.RESTART a` releases data, then clock, then does as `BUS.START`; the order of the releases is the spec's
decision D8 (log 14). -/
def Obligations.BusRestartReleasesThenStarts : Prop :=
  ∀ (s : State) (a : Byte), configOk s.cfg = true →
    exec (.busRestart a) s = .next { s with
      cp := s.cp + 2, sdaDrv := false, sclDrv := true
      traceRev := ([Event.sdaRel, Event.sclRel, Event.sdaLow, Event.sclLow] ++ evWrite a).reverse ++ s.traceRev }

/-- R100: `BUS.STOP` drives data low, releases clock, releases data, and leaves the bus idle. -/
def Obligations.BusStopReleasesBus : Prop :=
  ∀ s : State, configOk s.cfg = true →
    exec .busStop s = .next { s with
      cp := s.cp + 1, sdaDrv := false, sclDrv := false, traceRev := [Event.sdaLow, Event.sclRel, Event.sdaRel].reverse ++ s.traceRev }

/-- `BUS.READ k`: the environment's next eight answers are sampled at clock-high, the first lands in bit 7, `RES`
is the byte zero-extended, the answers are used up, and the data line stays driven low exactly when `k` is
1 (40_bus.md R97; no release after the acknowledgment pulse is the spec's decision D9, log 15). -/
def Obligations.BusReadReceivesByte : Prop :=
  ∀ (s : State) (k : Byte), configOk s.cfg = true → k.toNat ≤ 1 →
    ∃ res : Word, (∀ j, j < 16 → res.getLsbD j = (decide (j < 8) && (s.nextDrives 8).getD (7 - j) false)) ∧
      exec (.busRead k) s = .next { s with
        cp := s.cp + 2, sdaDrv := decide (k = 1), sclDrv := true, res := res
        answers := s.answers.drop 8, sampleNo := s.sampleNo + 8
        traceRev := (evRead (s.nextDrives 8) (decide (k = 1))).reverse ++ s.traceRev }

/-- R103: what an observer of a write sees: exactly nine clock-highs, at the first eight the data line is released
exactly when the bit is 1, most significant first, at the ninth it is released. -/
def Obligations.WriteShowsBitsAtClockHigh : Prop :=
  ∀ (s : State) (b : Byte), configOk s.cfg = true → s.sclDrv = true →
    ∃ t evs, exec (.busWrite b) s = .next t ∧ t.trace = s.trace ++ evs ∧ evs.length = 27 ∧
      sdaAtClockHigh (s.sdaDrv, s.sclDrv) evs =
        [!b.getLsbD 7, !b.getLsbD 6, !b.getLsbD 5, !b.getLsbD 4, !b.getLsbD 3, !b.getLsbD 2, !b.getLsbD 1, !b.getLsbD 0, false]

/-- R102: no operation of the family has a failure outcome or runs without bound: each ends, after its fixed number
of events (WRITE 27, READ 28 or 27, START 29, RESTART 31, STOP 3). The data line is sampled by READ only, once in each of
its eight data bit-times, between clock-high and clock-low, and not in the acknowledgment pulse after them. The clock
line is never sampled: the only sampling event is that of the data line. -/
def Obligations.BusOperationsEndAfterFixedEvents : Prop :=
  ∀ (i : Instr) (s : State), isBus i = true → configOk s.cfg = true → i.wellFormed s.cfg.nGlyph = true →
    ∃ t evs, exec i s = .next t ∧ t.trace = s.trace ++ evs ∧
      evs.length = (match i with
        | .busWrite _ => 27
        | .busRead k => if k = 1 then 28 else 27
        | .busStart _ => 29
        | .busRestart _ => 31
        | _ => 3) ∧
      (match i with
        | .busRead k => ∃ bits : List Bool, bits.length = 8 ∧
            evs = [.sdaRel] ++ bits.flatMap (fun b => [.sclRel, .sample b, .sclLow]) ++
              (if k = 1 then [.sdaLow] else []) ++ [.sclRel, .sclLow]
        | _ => sampledBits evs = [])

/-- A silent bus: when the environment answers 1 to every sample, `BUS.READ` gives 0xFF and a poll gives six
registers 0xFFFF (20_memory.md R47, an inference of the spec; 90_conflicts.md C3). -/
def Obligations.SilentBusReadsOnes : Prop :=
  ∀ (s : State) (k : Byte), configOk s.cfg = true → k.toNat ≤ 1 →
    (s.nextDrives 8 = List.replicate 8 true → ∃ t, exec (.busRead k) s = .next t ∧ t.res = 0x00FF) ∧
    (s.nextDrives 96 = List.replicate 96 true →
      ∃ t, exec .tunUpdate s = .next t ∧ ∀ j, j < 6 → bankGet t.rreg j = 0xFFFF)

/-! ### DSP family (the transaction's control byte is the spec's decision D12, log 17) -/

/-- `DSP.INIT`: one command transaction with the init bytes, the cursor shadow unchanged (41_display.md R111,
decision D15, log 18). -/
def Obligations.DspInitSendsInitBytes : Prop :=
  ∀ s : State, configOk s.cfg = true →
    exec .dspInit s = .next { s with
      cp := s.cp + 1, sdaDrv := false, sclDrv := false
      traceRev := (evDisplayCmd s.cfg s.cfg.initSeq).reverse ++ s.traceRev }

/-- `DSP.SETCURSOR`: one command transaction with the cursor bytes, the shadow takes the operands unmasked. The default
bytes are low column nibble, high column nibble, page (41_display.md R112, decision D14, general knowledge G14);
another display's are its table's entry for the column and row, or a free function (log 6). -/
def Obligations.DspSetcursorMovesShadow : Prop :=
  ∀ (s : State) (col row : Byte), configOk s.cfg = true →
    exec (.dspSetcursor col row) s = .next (
      let bytes := match s.cfg.cursorCmds with
        | .pageAddressed => [col &&& 0x0F#8, 0x10#8 ||| (col >>> 4), 0xB0#8 ||| (row &&& 0x07#8)]
        | .table values => values[col.toNat][row.toNat]
        | .other => Config.freeCursorCmds col row
      { s with
        cp := s.cp + 3, sdaDrv := false, sclDrv := false, curX := col, curY := row
        traceRev := (evDisplayCmd s.cfg bytes).reverse ++ s.traceRev })

/-- `DSP.CLEARLINE`: `DISP_COLS - CUR_X` zero bytes in one data transaction, then the cursor transaction to
column 0 of the next page (41_display.md R118). -/
def Obligations.DspClearlineBlanksRest : Prop :=
  ∀ s : State, configOk s.cfg = true →
    exec .dspClearline s = .next { s with
      cp := s.cp + 1, sdaDrv := false, sclDrv := false, curX := 0, curY := s.curY + 1
      traceRev := (evDisplayData s.cfg (List.replicate (s.cfg.dispCols - s.curX.toNat) 0x00) ++
        evCursor s.cfg 0 (s.curY + 1)).reverse ++ s.traceRev }

/-- `DSP.CLEARSCREEN`: home, then for each of four pages `DISP_COLS` zero bytes and the cursor to the next page;
the cursor ends at page 4, column 0 (41_display.md R119). -/
def Obligations.DspClearscreenBlanksFourPages : Prop :=
  ∀ s : State, configOk s.cfg = true →
    exec .dspClearscreen s = .next { s with
      cp := s.cp + 1, sdaDrv := false, sclDrv := false, curX := 0, curY := 4
      traceRev := (evCursor s.cfg 0 0 ++ ([1, 2, 3, 4] : List Byte).flatMap (fun page =>
        evDisplayData s.cfg (List.replicate s.cfg.dispCols 0x00) ++ evCursor s.cfg 0 page)).reverse ++ s.traceRev }

/-- `DSP.PRINTCHAR`: a data transaction with the blank column and the five font bytes at `(c - 32) * 5`; the cursor
moves 6 columns, and past column 122 the wrap's transactions follow, the last one empty (41_display.md R116, R117, R120;
decisions D16, D17, logs 19, 20). -/
def Obligations.DspPrintcharPlotsGlyph : Prop :=
  ∀ (s : State) (c : Byte), configOk s.cfg = true → 32 ≤ c.toNat → c.toNat < 32 + s.cfg.nGlyph →
    exec (.dspPrintchar c) s = .next (
      let font := fontByte s.cfg
      let i := (c.toNat - 32) * 5
      let glyph := evDisplayData s.cfg [0x00, font i, font (i + 1), font (i + 2), font (i + 3), font (i + 4)]
      if 122 < (s.curX.toNat + 6) % 256 then
        { s with
          cp := s.cp + 2, sdaDrv := false, sclDrv := false, curX := 0, curY := s.curY + 1
          traceRev := (glyph ++ evCursor s.cfg 0 (s.curY + 1) ++ evDisplayData s.cfg []).reverse ++ s.traceRev }
      else
        { s with
          cp := s.cp + 2, sdaDrv := false, sclDrv := false, curX := s.curX + 6
          traceRev := glyph.reverse ++ s.traceRev })

/-- `DSP.PRINTSTR`: the text's page transactions and the cursor they lead to (41_display.md R116, R117, R121, decision D16, log 19). -/
def Obligations.DspPrintstrSendsPages : Prop :=
  ∀ (s : State) (cs : List Byte), configOk s.cfg = true → (∀ c ∈ cs, 32 ≤ c.toNat ∧ c.toNat < 32 + s.cfg.nGlyph) →
    exec (.dspPrintstr cs) s = .next { s with
      cp := s.cp + (cs.length + 2), sdaDrv := false, sclDrv := false
      curX := (cursorAfter cs.length (s.curX, s.curY)).1, curY := (cursorAfter cs.length (s.curX, s.curY)).2
      traceRev := (evText s.cfg s.curX s.curY cs).reverse ++ s.traceRev }

/-- A page holds 21 characters from column 0: after an n-character string the cursor is at character n mod 21 of
the page n / 21 further down (41_display.md R117, R121, decision D16, log 19). -/
def Obligations.StringOf21FillsPage : Prop :=
  ∀ (s : State) (cs : List Byte), configOk s.cfg = true → (∀ c ∈ cs, 32 ≤ c.toNat ∧ c.toNat < 32 + s.cfg.nGlyph) →
    s.curX = 0 → ∃ t, exec (.dspPrintstr cs) s = .next t ∧ t.curX = BitVec.ofNat 8 (6 * (cs.length % 21)) ∧
      t.curY = s.curY + BitVec.ofNat 8 (cs.length / 21)

/-- `DSP.PRINTLINE`: the string as `DSP.PRINTSTR` sends it, then as `DSP.CLEARLINE` from where it ends
(41_display.md R122, the spec's decision D18, log 21). -/
def Obligations.DspPrintlineClearsAfterText : Prop :=
  ∀ (s : State) (cs : List Byte), configOk s.cfg = true → (∀ c ∈ cs, 32 ≤ c.toNat ∧ c.toNat < 32 + s.cfg.nGlyph) →
    exec (.dspPrintline cs) s = .next (
      let p := cursorAfter cs.length (s.curX, s.curY)
      { s with
        cp := s.cp + (cs.length + 2), sdaDrv := false, sclDrv := false, curX := 0, curY := p.2 + 1
        traceRev := (evText s.cfg s.curX s.curY cs ++ evClearLine s.cfg p.1 p.2).reverse ++ s.traceRev })

/-- `DSP.PRINTNUM`: the text sent is the number's decimal digits, by division, leading zeros as spaces, the decimal
position and all right of it shown, the point after the decimal position (41_display.md R123; decision D19, log 22). -/
def Obligations.DspPrintnumSendsDecimalText : Prop :=
  ∀ (s : State) (value : Word) (digits decimal : Byte), configOk s.cfg = true → digits.toNat ≤ 5 →
    value.toNat < 10 ^ digits.toNat →
    exec (.dspPrintnum value digits decimal) s = .next (
      let text := numberText value digits.toNat decimal
      { s with
        cp := s.cp + 5, sdaDrv := false, sclDrv := false
        curX := (cursorAfter text.length (s.curX, s.curY)).1, curY := (cursorAfter text.length (s.curX, s.curY)).2
        traceRev := (evText s.cfg s.curX s.curY text).reverse ++ s.traceRev })

/-- R123's repeated subtraction finds each digit: from a value below ten times the power, it leaves the remainder
and counts the quotient. -/
def Obligations.RepeatedSubtractionDivides : Prop :=
  ∀ (v : Word) (p : Nat), p ≤ 4 → v.toNat < 10 ^ (p + 1) →
    (takeDigit v p).1.toNat = v.toNat % 10 ^ p ∧ (takeDigit v p).2.toNat = v.toNat / 10 ^ p

/-- R110: a DSP operation is a sequence of whole write transactions, each opened and closed, on the bus and nothing
else: no sample, no failure; which ones depends on the operands, the cursor and the configuration only, so every state
with these three in common gets the same events, whatever its environment; and it ends on an idle bus. -/
def Obligations.DisplaySendsClosedTransactionsOnly : Prop :=
  ∀ (i : Instr) (s : State), isDsp i = true → configOk s.cfg = true → i.wellFormed s.cfg.nGlyph = true →
    ∃ transactions : List (Byte × List Byte), ∀ s' : State, s'.cfg = s.cfg → s'.curX = s.curX → s'.curY = s.curY →
      ∃ t, exec i s' = .next t ∧ t.trace = s'.trace ++ transactions.flatMap (fun x => evTransaction x.1 x.2) ∧
        BusIdle t ∧ t.answers = s'.answers ∧ t.sampleNo = s'.sampleNo

/-! ### TUN family (the shape of the three tuner transfers is the spec's decision D22, log 23) -/

/-- `TUN.INIT`: name blanked (slots 0 to 7 hold 0x20, slot 8 is kept, R144, log 33); the bank written
with the reset bit set, then with it clear; then the starting volume merged and its register written; `TSTATE` is `IDLE` (42_tuner.md R145, decision D24, log 24). -/
def Obligations.TunInitPulsesReset : Prop :=
  ∀ s : State, configOk s.cfg = true →
    ∃ name : Vector Byte 9, (∀ k, k < 8 → slotGet name k = 0x20#8) ∧ slotGet name 8 = slotGet s.name 8 ∧
      exec .tunInit s = .next (
        let c := s.cfg
        let w1 := bankSet s.wreg c.rReset (bankGet s.wreg c.rReset ||| c.mReset)
        let w2 := bankSet w1 c.rReset (bankGet w1 c.rReset &&& ~~~c.mReset)
        let vol := (bankGet w2 c.rVol &&& ~~~(0x000F#16 <<< c.volShift)) ||| (c.startVolume.zeroExtend 16 <<< c.volShift)
        { s with
          cp := s.cp + 1, sdaDrv := false, sclDrv := false
          name := name, wreg := bankSet w2 c.rVol vol, tstate := .idle
          traceRev := (evWriteBank c w1 ++ evWriteBank c w2 ++ evWriteOne c c.rVol vol).reverse ++ s.traceRev })

/-- `TUN.SETVOL`: the volume field merged into the cache, then that register written; `TSTATE` unchanged
(42_tuner.md R146). -/
def Obligations.TunSetvolWritesVolume : Prop :=
  ∀ (s : State) (level : Byte), configOk s.cfg = true → level.toNat ≤ 15 →
    exec (.tunSetvol level) s = .next (
      let c := s.cfg
      let vol := (bankGet s.wreg c.rVol &&& ~~~(0x000F#16 <<< c.volShift)) ||| (level.zeroExtend 16 <<< c.volShift)
      { s with
        cp := s.cp + 2, sdaDrv := false, sclDrv := false, wreg := bankSet s.wreg c.rVol vol
        traceRev := (evWriteOne c c.rVol vol).reverse ++ s.traceRev })

/-- `TUN.SETCHAN`: name blanked (slots 0 to 7 hold 0x20, slot 8 is kept, R144, log 33), channel field and
tune flag merged, that register written, `TSTATE` is `TUNING`; `CAND` is not touched (42_tuner.md R147). -/
def Obligations.TunSetchanWritesChannel : Prop :=
  ∀ (s : State) (chan : Word), configOk s.cfg = true → chan.toNat ≤ 1023 →
    ∃ name : Vector Byte 9, (∀ k, k < 8 → slotGet name k = 0x20#8) ∧ slotGet name 8 = slotGet s.name 8 ∧
      exec (.tunSetchan chan) s = .next (
        let c := s.cfg
        let v := (bankGet s.wreg c.rChan &&& ~~~(0x03FF#16 <<< c.chanShift)) ||| (chan <<< c.chanShift) ||| c.mTune
        { s with
          cp := s.cp + 3, sdaDrv := false, sclDrv := false
          name := name, wreg := bankSet s.wreg c.rChan v, tstate := .tuning
          traceRev := (evWriteOne c c.rChan v).reverse ++ s.traceRev })

/-- `TUN.SEEK`: name blanked (slots 0 to 7 hold 0x20, slot 8 is kept, R144, log 33), seek flag set, that register
written, `TSTATE` is `SEEKING`; `CAND` is not touched (42_tuner.md R148). -/
def Obligations.TunSeekSetsFlag : Prop :=
  ∀ s : State, configOk s.cfg = true →
    ∃ name : Vector Byte 9, (∀ k, k < 8 → slotGet name k = 0x20#8) ∧ slotGet name 8 = slotGet s.name 8 ∧
      exec .tunSeek s = .next (
        let c := s.cfg
        let v := bankGet s.wreg c.rSeek ||| c.mSeek
        { s with
          cp := s.cp + 1, sdaDrv := false, sclDrv := false
          name := name, wreg := bankSet s.wreg c.rSeek v, tstate := .seeking
          traceRev := (evWriteOne c c.rSeek v).reverse ++ s.traceRev })

/-- R149 for the two merged fields: after `TUN.SETVOL` the volume field reads back as the level, after
`TUN.SETCHAN` the channel field as the channel and the tune flag is set, and every other bit of the register
and every other register keeps its value. -/
def Obligations.MergesKeepOtherBits : Prop :=
  ∀ (s : State) (level : Byte) (chan : Word), configOk s.cfg = true → level.toNat ≤ 15 → chan.toNat ≤ 1023 →
    (∃ t, exec (.tunSetvol level) s = .next t ∧
      (wregAt t s.cfg.rVol >>> s.cfg.volShift &&& 0x000F).toNat = level.toNat ∧
      (∀ j, j < 16 → (volMask s.cfg).getLsbD j = false →
        (wregAt t s.cfg.rVol).getLsbD j = (wregAt s s.cfg.rVol).getLsbD j) ∧
      (∀ i, i ≠ s.cfg.rVol → wregAt t i = wregAt s i)) ∧
    (∃ t, exec (.tunSetchan chan) s = .next t ∧
      (wregAt t s.cfg.rChan >>> s.cfg.chanShift &&& 0x03FF).toNat = chan.toNat ∧
      wregAt t s.cfg.rChan &&& s.cfg.mTune = s.cfg.mTune ∧
      (∀ j, j < 16 → (chanMask s.cfg ||| s.cfg.mTune).getLsbD j = false →
        (wregAt t s.cfg.rChan).getLsbD j = (wregAt s s.cfg.rChan).getLsbD j) ∧
      (∀ i, i ≠ s.cfg.rChan → wregAt t i = wregAt s i))

/-- `TUN.UPDATE`, whole: the next 96 answers become the read bank; `STC` clears both flags in the cache and ends
`SEEKING` or `TUNING`; `RDSR` sends the request register with the flag clear, then set, and decodes one group
(42_tuner.md R143, R150; decision D25, log 25). -/
def Obligations.TunUpdatePollsAndRetires : Prop :=
  ∀ s : State, configOk s.cfg = true →
    exec .tunUpdate s = .next (
      let c := s.cfg
      let bits := s.nextDrives 96
      let bank := bankOf bits
      let stc := bankGet bank c.rStatus &&& c.mStc != 0
      let rdsr := bankGet bank c.rStatus &&& c.mRdsr != 0
      let w1 := bankSet s.wreg c.rChan (bankGet s.wreg c.rChan &&& ~~~c.mTune)
      let w2 := if stc then bankSet w1 c.rSeek (bankGet w1 c.rSeek &&& ~~~c.mSeek) else s.wreg
      let off := bankGet w2 c.rRdsreq &&& ~~~c.mRdsreq
      let on := off ||| c.mRdsreq
      let bufs := if rdsr then decodeGroup c bank (s.name, s.cand) else (s.name, s.cand)
      let toggle := if rdsr then evWriteOne c c.rRdsreq off ++ evWriteOne c c.rRdsreq on else []
      { s with
        cp := s.cp + 1, sdaDrv := false, sclDrv := false
        rreg := bank, answers := s.answers.drop 96, sampleNo := s.sampleNo + 96
        wreg := if rdsr then bankSet w2 c.rRdsreq on else w2
        tstate := if stc && (s.tstate == .seeking || s.tstate == .tuning) then .idle else s.tstate
        name := bufs.1, cand := bufs.2
        traceRev := (evReadBank c bits ++ toggle).reverse ++ s.traceRev })

/-- One decode cycle per slot (42_tuner.md R158; decision D26, log 26): in a poll that reads `RDSR` set and a matching
group, the two slots of the group's offset take their character as candidate, and as name exactly when it was the
candidate already; every other slot, and all slots when the group does not match, stay. -/
def Obligations.UpdateDebouncesTwoSlots : Prop :=
  ∀ s : State, configOk s.cfg = true → rdsrSet s.cfg (bankOf (s.nextDrives 96)) = true →
    ∃ t, exec .tunUpdate s = .next t ∧
      let b := bankGet t.rreg s.cfg.rBlkb
      let w := bankGet t.rreg s.cfg.rBlkd
      let char := fun k => if k % 2 = 0 then hiByte w else loByte w
      ∀ k, k < 9 →
        if b &&& s.cfg.psMask = s.cfg.psMatch ∧ k / 2 = b.toNat % 4 then
          slotGet t.cand k = char k ∧
          slotGet t.name k = (if slotGet s.cand k = char k then char k else slotGet s.name k)
        else slotGet t.cand k = slotGet s.cand k ∧ slotGet t.name k = slotGet s.name k

/-- The source's property 3, first half: the same matching group in two polls in a row puts both characters into the
visible name (42_tuner.md R158; decision D26, log 26). -/
def Obligations.SameGroupTwicePromotesBoth : Prop :=
  ∀ s : State, configOk s.cfg = true →
    let b1 := bankOfPoll s 0
    let b2 := bankOfPoll s 1
    rdsrSet s.cfg b1 = true → rdsrSet s.cfg b2 = true →
    bankGet b1 s.cfg.rBlkb = bankGet b2 s.cfg.rBlkb → bankGet b1 s.cfg.rBlkd = bankGet b2 s.cfg.rBlkd →
    psGroup s.cfg (bankGet b1 s.cfg.rBlkb) = true →
    ∃ t u, exec .tunUpdate s = .next t ∧ exec .tunUpdate t = .next u ∧
      slotGet u.name (2 * ((bankGet b1 s.cfg.rBlkb).toNat % 4)) = hiByte (bankGet b1 s.cfg.rBlkd) ∧
      slotGet u.name (2 * ((bankGet b1 s.cfg.rBlkb).toNat % 4) + 1) = loByte (bankGet b1 s.cfg.rBlkd)

/-- The source's property 3, second half, with the premise of 90_conflicts.md C7: two observations at one offset, the
first differing from the candidates left in both characters, the second from the first in both, promote neither. -/
def Obligations.DifferentGroupsPromoteNeither : Prop :=
  ∀ s : State, configOk s.cfg = true →
    let b1 := bankOfPoll s 0
    let b2 := bankOfPoll s 1
    let off := (bankGet b1 s.cfg.rBlkb).toNat % 4
    rdsrSet s.cfg b1 = true → rdsrSet s.cfg b2 = true →
    (bankGet b2 s.cfg.rBlkb).toNat % 4 = off →
    hiByte (bankGet b1 s.cfg.rBlkd) ≠ slotGet s.cand (2 * off) →
    loByte (bankGet b1 s.cfg.rBlkd) ≠ slotGet s.cand (2 * off + 1) →
    psGroup s.cfg (bankGet b1 s.cfg.rBlkb) = true →
    hiByte (bankGet b2 s.cfg.rBlkd) ≠ hiByte (bankGet b1 s.cfg.rBlkd) →
    loByte (bankGet b2 s.cfg.rBlkd) ≠ loByte (bankGet b1 s.cfg.rBlkd) →
    ∃ t u, exec .tunUpdate s = .next t ∧ exec .tunUpdate t = .next u ∧ u.name = s.name

/-- One turn of `TUN.WAIT` is a whole `TUN.UPDATE`; the command ends when that poll shows `STC`, else `cp` stays on
the command for the next turn (42_tuner.md R159; one turn a step is the model's reading, log 4). -/
def Obligations.TunWaitIsUpdateUntilDone : Prop :=
  ∀ s : State, configOk s.cfg = true →
    ∃ u, exec .tunUpdate s = .next u ∧
      exec .tunWait s = .next (if bankGet u.rreg s.cfg.rStatus &&& s.cfg.mStc != 0 then u else { u with cp := s.cp })

/-- `TUN.WAIT` ends with the first poll that reads `STC` set, however late: after exactly that many steps `cp` is past
the command and 96 answers a poll are used up (42_tuner.md R159; log 4). -/
def Obligations.TunWaitEndsAtFirstCompletion : Prop :=
  ∀ (s : State) (n : Nat), AtWait s → (∀ m, m < n → stcSet s.cfg (bankOfPoll s m) = false) →
    stcSet s.cfg (bankOfPoll s n) = true →
    ∃ t, Sys2Proof.core.run (n + 1) s = .next t ∧ t.cp = s.cp + 1 ∧ t.rreg = bankOfPoll s n ∧
      t.sampleNo = s.sampleNo + 96 * (n + 1)

/-- R184's hang: as long as no poll reads `STC` set, every further step is one more poll and the command has not
ended; no fault, no refusal, no bound. -/
def Obligations.TunWaitHangsWithoutCompletion : Prop :=
  ∀ (s : State) (n : Nat), AtWait s → (∀ m, m < n → stcSet s.cfg (bankOfPoll s m) = false) →
    ∃ t, Sys2Proof.core.run n s = .next t ∧ t.cp = s.cp ∧ AtWait t ∧ t.sampleNo = s.sampleNo + 96 * n

/-- `TUN.FREQ`: `RES` is 8700 plus ten times the 10-bit channel the device last reported; nothing else changes, no
event (42_tuner.md R160; whose channel is the spec's decision D27, log 27). -/
def Obligations.TunFreqComputesFrequency : Prop :=
  ∀ s : State, configOk s.cfg = true →
    ∃ res : Word, res.toNat = 8700 + 10 * ((bankGet s.rreg s.cfg.rStatus).toNat / 2 ^ s.cfg.chanRdShift % 1024) ∧
      exec .tunFreq s = .next { s with cp := s.cp + 1, res := res }

/-! ### Rules of the whole machine -/

/-- R55: no operation can write the command stream, the ROM tables or the configuration. -/
def Obligations.StepKeepsProgramAndConfig : Prop :=
  ∀ s t : State, step s = .next t → t.cfg = s.cfg ∧ t.stream = s.stream

/-- Nothing but a poll writes the candidate buffer: not `TUN.INIT`, not `TUN.SETCHAN`, not `TUN.SEEK`, no operation of
another family; no operation writes its ninth element. A poll changes a candidate only to the character that the
matching group just read carries for that slot, and a character of the visible name only to the candidate that stood
in that slot, the character seen in the cycle before (10_state.md R24, 42_tuner.md R158). For `TUN.WAIT` this is said
of one turn, which is one step (the model's reading, log 4); offset and character order are decision D26 (log 26). -/
def Obligations.CandidatesOutliveRetuning : Prop :=
  ∀ (i : Instr) (s t : State), exec i s = .next t →
    (i ≠ .tunUpdate → i ≠ .tunWait → t.cand = s.cand) ∧ slotGet t.cand 8 = slotGet s.cand 8 ∧
    ((i = .tunUpdate ∨ i = .tunWait) → ∀ k,
      (slotGet t.name k = slotGet s.name k ∨ slotGet t.name k = slotGet s.cand k) ∧
      (slotGet t.cand k = slotGet s.cand k ∨
        let b := bankGet t.rreg s.cfg.rBlkb
        let w := bankGet t.rreg s.cfg.rBlkd
        rdsrSet s.cfg t.rreg = true ∧ b &&& s.cfg.psMask = s.cfg.psMatch ∧ k / 2 = b.toNat % 4 ∧
          slotGet t.cand k = if k % 2 = 0 then hiByte w else loByte w))

/-- The read bank is written only by the full-bank read of a poll, all six elements in one operation (10_state.md R21).
That a `TUN.WAIT` leaves the next 96 answers is said of one turn, which is one step (the model's reading, log 4); how the
answers spell the registers is decision D22 (log 23). -/
def Obligations.ReadBankWrittenByPollsOnly : Prop :=
  ∀ (i : Instr) (s t : State), exec i s = .next t →
    t.rreg = if i = .tunUpdate ∨ i = .tunWait then bankOf (s.nextDrives 96) else s.rreg

/-- R15: `RES` is written by `BUS.READ` and `TUN.FREQ` only; the internal reads of a poll do not touch it. -/
def Obligations.ResultWrittenByTwoOperations : Prop :=
  ∀ (i : Instr) (s t : State), exec i s = .next t → (∀ k, i ≠ .busRead k) → i ≠ .tunFreq → t.res = s.res

/-- The cursor shadow is changed by DSP operations only, and the tuner registers by no BUS and no DSP operation
(10_state.md R16, R19, R21, R23, R24, R25): the frame of whole families for these registers. -/
def Obligations.CursorAndTunerRegistersKeptByOtherFamilies : Prop :=
  ∀ (i : Instr) (s t : State), exec i s = .next t →
    (isDsp i = false → t.curX = s.curX ∧ t.curY = s.curY) ∧
    (isBus i = true ∨ isDsp i = true → t.wreg = s.wreg ∧ t.rreg = s.rreg ∧ t.name = s.name ∧ t.cand = s.cand ∧
      t.tstate = s.tstate)

/-- R52: every visible effect is a line event appended to the trace in order: a step never changes or removes an
earlier event; the samples it records are exactly the environment answers it uses up, in order, each with the
data line released (R94), so that the bit sampled is the answer. -/
def Obligations.TraceGrowsByWhatHappened : Prop :=
  ∀ s t : State, step s = .next t →
    ∃ evs, t.trace = s.trace ++ evs ∧ sampledBits evs = s.nextDrives (t.sampleNo - s.sampleNo) ∧
      s.sampleNo ≤ t.sampleNo ∧ t.answers = s.answers.drop (t.sampleNo - s.sampleNo)

/-- The latches always are what the trace since reset makes them (10_state.md R11: written only by the
micro-operations and by reset; 40_bus.md R90 to R95): an invariant of every step. -/
def Obligations.StepKeepsLatchesFollowTrace : Prop :=
  ∀ s t : State, LatchesFollowTrace s → step s = .next t → LatchesFollowTrace t

/-- 10_state.md R31 (a) and (c), an invariant of every step: the terminator (and `CAND[8]`) stay 0, and every bit of
`WREG` outside the named fields keeps its preset value. -/
def Obligations.StepKeepsUnnamedBits : Prop :=
  ∀ s t : State, TerminatorsZero s ∧ UnnamedBitsPreset s → step s = .next t → TerminatorsZero t ∧ UnnamedBitsPreset t

/-- 42_tuner.md R161's mirror, an invariant of every step: `SEEKING` only with the seek flag set in the cache, `TUNING`
only with the tune flag set. -/
def Obligations.StepKeepsStateMirrorsFlags : Prop :=
  ∀ s t : State, StateMirrorsFlags s → step s = .next t → StateMirrorsFlags t

/-- The three invariants hold right after reset, for every configuration record. -/
def Obligations.ResetMeetsInvariants : Prop :=
  ∀ c : Config, LatchesFollowTrace (State.resetWith c) ∧ TerminatorsZero (State.resetWith c) ∧
    UnnamedBitsPreset (State.resetWith c) ∧ StateMirrorsFlags (State.resetWith c)

/-- 10_state.md R31 (e): an operation of the DSP or TUN family begun on an idle bus ends on an idle bus. -/
def Obligations.DisplayAndTunerLeaveBusIdle : Prop :=
  ∀ (i : Instr) (s t : State), isBus i = false → BusIdle s → exec i s = .next t → BusIdle t

/-- 42_tuner.md R161's table (the transitions are the spec's decision D29, log 28). For `TUN.WAIT` it is said of one
turn, which is one step (the model's reading, log 4). -/
def Obligations.TunerStateTransitions : Prop :=
  ∀ (i : Instr) (s t : State), exec i s = .next t →
    t.tstate =
      if i = .tunInit then .idle
      else if ∃ chan, i = .tunSetchan chan then .tuning
      else if i = .tunSeek then .seeking
      else if (i = .tunUpdate ∨ i = .tunWait) ∧ stcSet s.cfg t.rreg = true ∧ (s.tstate = .seeking ∨ s.tstate = .tuning)
        then .idle
      else s.tstate

/-- 10_state.md R19 (a): what the device answers never reaches the writable cache but through the two flags `STC` and
`RDSR`: two runs of one operation that differ in the environment's answers, and see the same two flags, leave
equal caches. Of `TUN.WAIT` a run is one turn of its loop, which is one step (the model's reading, log 4). -/
def Obligations.CacheNeverCopiesDevice : Prop :=
  ∀ (i : Instr) (s t t' : State) (answers : List Bool) (n : Nat),
    exec i s = .next t → exec i { s with answers := answers, sampleNo := n } = .next t' →
    stcSet s.cfg t.rreg = stcSet s.cfg t'.rreg → rdsrSet s.cfg t.rreg = rdsrSet s.cfg t'.rreg → t.wreg = t'.wreg

/-- What a slave reads off the wire (30_encoding.md R74, R79) when a volume, channel or seek command runs on an idle bus
that no slave drives: a start, the address byte, the register address, the two halves of the cache register as
the command left it, each with an unanswered acknowledgment bit, and a stop. -/
def Obligations.SlaveReadsTunerWrite : Prop :=
  ∀ (i : Instr) (s t : State) (r : Nat), BusIdle s → exec i s = .next t →
    ((∃ level, i = .tunSetvol level) ∧ r = s.cfg.rVol ∨ (∃ chan, i = .tunSetchan chan) ∧ r = s.cfg.rChan ∨
      i = .tunSeek ∧ r = s.cfg.rSeek) →
    ∃ evs, t.trace = s.trace ++ evs ∧
      wireItems evs = [.start, .byte (addrByte s.cfg.addrTunIdx false) true, .byte (BitVec.ofNat 8 (2 + r)) true,
        .byte (hiByte (wregAt t r)) true, .byte (loByte (wregAt t r)) true, .stop]

/-- Event counts of the longer operations (42_tuner.md R141 to R143, R145, R150): `TUN.INIT` 825, one register 113, a
poll 367 or, with radio-data available, 593. For `TUN.WAIT` the count is that of one turn of its loop, which is one
step (the model's reading, log 4): the whole command has no bound (R159). -/
def Obligations.TunerEventCounts : Prop :=
  ∀ (i : Instr) (s t : State), exec i s = .next t → isBus i = false → isDsp i = false →
    ∃ evs, t.trace = s.trace ++ evs ∧ evs.length =
      if i = .tunInit then 825
      else if i = .tunFreq then 0
      else if i = .tunUpdate ∨ i = .tunWait then (if rdsrSet s.cfg t.rreg = true then 593 else 367)
      else 113
end

