-- ==== Sys2Proof/Laws/State.lean ====
section
/-!
SUPPORT. One lemma per field per update of State, each true by unfolding, so that no later proof opens a
record update.
-/

namespace Sys2Proof.Machine

/-! ### `advance` -/

@[simp] theorem advance_cfg (n : Nat) (s : State) : (advance n s).cfg = s.cfg := rfl
@[simp] theorem advance_stream (n : Nat) (s : State) : (advance n s).stream = s.stream := rfl
@[simp] theorem advance_cp (n : Nat) (s : State) : (advance n s).cp = s.cp + n := rfl
@[simp] theorem advance_sdaDrv (n : Nat) (s : State) : (advance n s).sdaDrv = s.sdaDrv := rfl
@[simp] theorem advance_sclDrv (n : Nat) (s : State) : (advance n s).sclDrv = s.sclDrv := rfl
@[simp] theorem advance_res (n : Nat) (s : State) : (advance n s).res = s.res := rfl
@[simp] theorem advance_curX (n : Nat) (s : State) : (advance n s).curX = s.curX := rfl
@[simp] theorem advance_curY (n : Nat) (s : State) : (advance n s).curY = s.curY := rfl
@[simp] theorem advance_wreg (n : Nat) (s : State) : (advance n s).wreg = s.wreg := rfl
@[simp] theorem advance_rreg (n : Nat) (s : State) : (advance n s).rreg = s.rreg := rfl
@[simp] theorem advance_name (n : Nat) (s : State) : (advance n s).name = s.name := rfl
@[simp] theorem advance_cand (n : Nat) (s : State) : (advance n s).cand = s.cand := rfl
@[simp] theorem advance_tstate (n : Nat) (s : State) : (advance n s).tstate = s.tstate := rfl
@[simp] theorem advance_traceRev (n : Nat) (s : State) : (advance n s).traceRev = s.traceRev := rfl
@[simp] theorem advance_answers (n : Nat) (s : State) : (advance n s).answers = s.answers := rfl
@[simp] theorem advance_sampleNo (n : Nat) (s : State) : (advance n s).sampleNo = s.sampleNo := rfl

/-! ### `sdaLow` -/

@[simp] theorem sdaLow_cfg (s : State) : (sdaLow s).cfg = s.cfg := rfl
@[simp] theorem sdaLow_stream (s : State) : (sdaLow s).stream = s.stream := rfl
@[simp] theorem sdaLow_cp (s : State) : (sdaLow s).cp = s.cp := rfl
@[simp] theorem sdaLow_sdaDrv (s : State) : (sdaLow s).sdaDrv = true := rfl
@[simp] theorem sdaLow_sclDrv (s : State) : (sdaLow s).sclDrv = s.sclDrv := rfl
@[simp] theorem sdaLow_res (s : State) : (sdaLow s).res = s.res := rfl
@[simp] theorem sdaLow_curX (s : State) : (sdaLow s).curX = s.curX := rfl
@[simp] theorem sdaLow_curY (s : State) : (sdaLow s).curY = s.curY := rfl
@[simp] theorem sdaLow_wreg (s : State) : (sdaLow s).wreg = s.wreg := rfl
@[simp] theorem sdaLow_rreg (s : State) : (sdaLow s).rreg = s.rreg := rfl
@[simp] theorem sdaLow_name (s : State) : (sdaLow s).name = s.name := rfl
@[simp] theorem sdaLow_cand (s : State) : (sdaLow s).cand = s.cand := rfl
@[simp] theorem sdaLow_tstate (s : State) : (sdaLow s).tstate = s.tstate := rfl
@[simp] theorem sdaLow_traceRev (s : State) : (sdaLow s).traceRev = .sdaLow :: s.traceRev := rfl
@[simp] theorem sdaLow_answers (s : State) : (sdaLow s).answers = s.answers := rfl
@[simp] theorem sdaLow_sampleNo (s : State) : (sdaLow s).sampleNo = s.sampleNo := rfl

/-! ### `sdaRel` -/

@[simp] theorem sdaRel_cfg (s : State) : (sdaRel s).cfg = s.cfg := rfl
@[simp] theorem sdaRel_stream (s : State) : (sdaRel s).stream = s.stream := rfl
@[simp] theorem sdaRel_cp (s : State) : (sdaRel s).cp = s.cp := rfl
@[simp] theorem sdaRel_sdaDrv (s : State) : (sdaRel s).sdaDrv = false := rfl
@[simp] theorem sdaRel_sclDrv (s : State) : (sdaRel s).sclDrv = s.sclDrv := rfl
@[simp] theorem sdaRel_res (s : State) : (sdaRel s).res = s.res := rfl
@[simp] theorem sdaRel_curX (s : State) : (sdaRel s).curX = s.curX := rfl
@[simp] theorem sdaRel_curY (s : State) : (sdaRel s).curY = s.curY := rfl
@[simp] theorem sdaRel_wreg (s : State) : (sdaRel s).wreg = s.wreg := rfl
@[simp] theorem sdaRel_rreg (s : State) : (sdaRel s).rreg = s.rreg := rfl
@[simp] theorem sdaRel_name (s : State) : (sdaRel s).name = s.name := rfl
@[simp] theorem sdaRel_cand (s : State) : (sdaRel s).cand = s.cand := rfl
@[simp] theorem sdaRel_tstate (s : State) : (sdaRel s).tstate = s.tstate := rfl
@[simp] theorem sdaRel_traceRev (s : State) : (sdaRel s).traceRev = .sdaRel :: s.traceRev := rfl
@[simp] theorem sdaRel_answers (s : State) : (sdaRel s).answers = s.answers := rfl
@[simp] theorem sdaRel_sampleNo (s : State) : (sdaRel s).sampleNo = s.sampleNo := rfl

/-! ### `sclLow` -/

@[simp] theorem sclLow_cfg (s : State) : (sclLow s).cfg = s.cfg := rfl
@[simp] theorem sclLow_stream (s : State) : (sclLow s).stream = s.stream := rfl
@[simp] theorem sclLow_cp (s : State) : (sclLow s).cp = s.cp := rfl
@[simp] theorem sclLow_sdaDrv (s : State) : (sclLow s).sdaDrv = s.sdaDrv := rfl
@[simp] theorem sclLow_sclDrv (s : State) : (sclLow s).sclDrv = true := rfl
@[simp] theorem sclLow_res (s : State) : (sclLow s).res = s.res := rfl
@[simp] theorem sclLow_curX (s : State) : (sclLow s).curX = s.curX := rfl
@[simp] theorem sclLow_curY (s : State) : (sclLow s).curY = s.curY := rfl
@[simp] theorem sclLow_wreg (s : State) : (sclLow s).wreg = s.wreg := rfl
@[simp] theorem sclLow_rreg (s : State) : (sclLow s).rreg = s.rreg := rfl
@[simp] theorem sclLow_name (s : State) : (sclLow s).name = s.name := rfl
@[simp] theorem sclLow_cand (s : State) : (sclLow s).cand = s.cand := rfl
@[simp] theorem sclLow_tstate (s : State) : (sclLow s).tstate = s.tstate := rfl
@[simp] theorem sclLow_traceRev (s : State) : (sclLow s).traceRev = .sclLow :: s.traceRev := rfl
@[simp] theorem sclLow_answers (s : State) : (sclLow s).answers = s.answers := rfl
@[simp] theorem sclLow_sampleNo (s : State) : (sclLow s).sampleNo = s.sampleNo := rfl

/-! ### `sclRel` -/

@[simp] theorem sclRel_cfg (s : State) : (sclRel s).cfg = s.cfg := rfl
@[simp] theorem sclRel_stream (s : State) : (sclRel s).stream = s.stream := rfl
@[simp] theorem sclRel_cp (s : State) : (sclRel s).cp = s.cp := rfl
@[simp] theorem sclRel_sdaDrv (s : State) : (sclRel s).sdaDrv = s.sdaDrv := rfl
@[simp] theorem sclRel_sclDrv (s : State) : (sclRel s).sclDrv = false := rfl
@[simp] theorem sclRel_res (s : State) : (sclRel s).res = s.res := rfl
@[simp] theorem sclRel_curX (s : State) : (sclRel s).curX = s.curX := rfl
@[simp] theorem sclRel_curY (s : State) : (sclRel s).curY = s.curY := rfl
@[simp] theorem sclRel_wreg (s : State) : (sclRel s).wreg = s.wreg := rfl
@[simp] theorem sclRel_rreg (s : State) : (sclRel s).rreg = s.rreg := rfl
@[simp] theorem sclRel_name (s : State) : (sclRel s).name = s.name := rfl
@[simp] theorem sclRel_cand (s : State) : (sclRel s).cand = s.cand := rfl
@[simp] theorem sclRel_tstate (s : State) : (sclRel s).tstate = s.tstate := rfl
@[simp] theorem sclRel_traceRev (s : State) : (sclRel s).traceRev = .sclRel :: s.traceRev := rfl
@[simp] theorem sclRel_answers (s : State) : (sclRel s).answers = s.answers := rfl
@[simp] theorem sclRel_sampleNo (s : State) : (sclRel s).sampleNo = s.sampleNo := rfl

/-! ### `sampleStep` -/

@[simp] theorem sampleStep_cfg (s : State) : (sampleStep s).cfg = s.cfg := rfl
@[simp] theorem sampleStep_stream (s : State) : (sampleStep s).stream = s.stream := rfl
@[simp] theorem sampleStep_cp (s : State) : (sampleStep s).cp = s.cp := rfl
@[simp] theorem sampleStep_sdaDrv (s : State) : (sampleStep s).sdaDrv = s.sdaDrv := rfl
@[simp] theorem sampleStep_sclDrv (s : State) : (sampleStep s).sclDrv = s.sclDrv := rfl
@[simp] theorem sampleStep_res (s : State) : (sampleStep s).res = s.res := rfl
@[simp] theorem sampleStep_curX (s : State) : (sampleStep s).curX = s.curX := rfl
@[simp] theorem sampleStep_curY (s : State) : (sampleStep s).curY = s.curY := rfl
@[simp] theorem sampleStep_wreg (s : State) : (sampleStep s).wreg = s.wreg := rfl
@[simp] theorem sampleStep_rreg (s : State) : (sampleStep s).rreg = s.rreg := rfl
@[simp] theorem sampleStep_name (s : State) : (sampleStep s).name = s.name := rfl
@[simp] theorem sampleStep_cand (s : State) : (sampleStep s).cand = s.cand := rfl
@[simp] theorem sampleStep_tstate (s : State) : (sampleStep s).tstate = s.tstate := rfl
@[simp] theorem sampleStep_traceRev (s : State) : (sampleStep s).traceRev = .sample (sampledBit s) :: s.traceRev := rfl
@[simp] theorem sampleStep_answers (s : State) : (sampleStep s).answers = s.answers.tail := rfl
@[simp] theorem sampleStep_sampleNo (s : State) : (sampleStep s).sampleNo = s.sampleNo + 1 := rfl

/-! ### `setRes` -/

@[simp] theorem setRes_cfg (v : Word) (s : State) : (setRes v s).cfg = s.cfg := rfl
@[simp] theorem setRes_stream (v : Word) (s : State) : (setRes v s).stream = s.stream := rfl
@[simp] theorem setRes_cp (v : Word) (s : State) : (setRes v s).cp = s.cp := rfl
@[simp] theorem setRes_sdaDrv (v : Word) (s : State) : (setRes v s).sdaDrv = s.sdaDrv := rfl
@[simp] theorem setRes_sclDrv (v : Word) (s : State) : (setRes v s).sclDrv = s.sclDrv := rfl
@[simp] theorem setRes_res (v : Word) (s : State) : (setRes v s).res = v := rfl
@[simp] theorem setRes_curX (v : Word) (s : State) : (setRes v s).curX = s.curX := rfl
@[simp] theorem setRes_curY (v : Word) (s : State) : (setRes v s).curY = s.curY := rfl
@[simp] theorem setRes_wreg (v : Word) (s : State) : (setRes v s).wreg = s.wreg := rfl
@[simp] theorem setRes_rreg (v : Word) (s : State) : (setRes v s).rreg = s.rreg := rfl
@[simp] theorem setRes_name (v : Word) (s : State) : (setRes v s).name = s.name := rfl
@[simp] theorem setRes_cand (v : Word) (s : State) : (setRes v s).cand = s.cand := rfl
@[simp] theorem setRes_tstate (v : Word) (s : State) : (setRes v s).tstate = s.tstate := rfl
@[simp] theorem setRes_traceRev (v : Word) (s : State) : (setRes v s).traceRev = s.traceRev := rfl
@[simp] theorem setRes_answers (v : Word) (s : State) : (setRes v s).answers = s.answers := rfl
@[simp] theorem setRes_sampleNo (v : Word) (s : State) : (setRes v s).sampleNo = s.sampleNo := rfl

/-! ### `setCursor` -/

@[simp] theorem setCursor_cfg (x y : Byte) (s : State) : (setCursor x y s).cfg = s.cfg := rfl
@[simp] theorem setCursor_stream (x y : Byte) (s : State) : (setCursor x y s).stream = s.stream := rfl
@[simp] theorem setCursor_cp (x y : Byte) (s : State) : (setCursor x y s).cp = s.cp := rfl
@[simp] theorem setCursor_sdaDrv (x y : Byte) (s : State) : (setCursor x y s).sdaDrv = s.sdaDrv := rfl
@[simp] theorem setCursor_sclDrv (x y : Byte) (s : State) : (setCursor x y s).sclDrv = s.sclDrv := rfl
@[simp] theorem setCursor_res (x y : Byte) (s : State) : (setCursor x y s).res = s.res := rfl
@[simp] theorem setCursor_curX (x y : Byte) (s : State) : (setCursor x y s).curX = x := rfl
@[simp] theorem setCursor_curY (x y : Byte) (s : State) : (setCursor x y s).curY = y := rfl
@[simp] theorem setCursor_wreg (x y : Byte) (s : State) : (setCursor x y s).wreg = s.wreg := rfl
@[simp] theorem setCursor_rreg (x y : Byte) (s : State) : (setCursor x y s).rreg = s.rreg := rfl
@[simp] theorem setCursor_name (x y : Byte) (s : State) : (setCursor x y s).name = s.name := rfl
@[simp] theorem setCursor_cand (x y : Byte) (s : State) : (setCursor x y s).cand = s.cand := rfl
@[simp] theorem setCursor_tstate (x y : Byte) (s : State) : (setCursor x y s).tstate = s.tstate := rfl
@[simp] theorem setCursor_traceRev (x y : Byte) (s : State) : (setCursor x y s).traceRev = s.traceRev := rfl
@[simp] theorem setCursor_answers (x y : Byte) (s : State) : (setCursor x y s).answers = s.answers := rfl
@[simp] theorem setCursor_sampleNo (x y : Byte) (s : State) : (setCursor x y s).sampleNo = s.sampleNo := rfl

/-! ### `setCurX` -/

@[simp] theorem setCurX_cfg (x : Byte) (s : State) : (setCurX x s).cfg = s.cfg := rfl
@[simp] theorem setCurX_stream (x : Byte) (s : State) : (setCurX x s).stream = s.stream := rfl
@[simp] theorem setCurX_cp (x : Byte) (s : State) : (setCurX x s).cp = s.cp := rfl
@[simp] theorem setCurX_sdaDrv (x : Byte) (s : State) : (setCurX x s).sdaDrv = s.sdaDrv := rfl
@[simp] theorem setCurX_sclDrv (x : Byte) (s : State) : (setCurX x s).sclDrv = s.sclDrv := rfl
@[simp] theorem setCurX_res (x : Byte) (s : State) : (setCurX x s).res = s.res := rfl
@[simp] theorem setCurX_curX (x : Byte) (s : State) : (setCurX x s).curX = x := rfl
@[simp] theorem setCurX_curY (x : Byte) (s : State) : (setCurX x s).curY = s.curY := rfl
@[simp] theorem setCurX_wreg (x : Byte) (s : State) : (setCurX x s).wreg = s.wreg := rfl
@[simp] theorem setCurX_rreg (x : Byte) (s : State) : (setCurX x s).rreg = s.rreg := rfl
@[simp] theorem setCurX_name (x : Byte) (s : State) : (setCurX x s).name = s.name := rfl
@[simp] theorem setCurX_cand (x : Byte) (s : State) : (setCurX x s).cand = s.cand := rfl
@[simp] theorem setCurX_tstate (x : Byte) (s : State) : (setCurX x s).tstate = s.tstate := rfl
@[simp] theorem setCurX_traceRev (x : Byte) (s : State) : (setCurX x s).traceRev = s.traceRev := rfl
@[simp] theorem setCurX_answers (x : Byte) (s : State) : (setCurX x s).answers = s.answers := rfl
@[simp] theorem setCurX_sampleNo (x : Byte) (s : State) : (setCurX x s).sampleNo = s.sampleNo := rfl

/-! ### `setWreg` -/

@[simp] theorem setWreg_cfg (i : Nat) (v : Word) (s : State) : (setWreg i v s).cfg = s.cfg := rfl
@[simp] theorem setWreg_stream (i : Nat) (v : Word) (s : State) : (setWreg i v s).stream = s.stream := rfl
@[simp] theorem setWreg_cp (i : Nat) (v : Word) (s : State) : (setWreg i v s).cp = s.cp := rfl
@[simp] theorem setWreg_sdaDrv (i : Nat) (v : Word) (s : State) : (setWreg i v s).sdaDrv = s.sdaDrv := rfl
@[simp] theorem setWreg_sclDrv (i : Nat) (v : Word) (s : State) : (setWreg i v s).sclDrv = s.sclDrv := rfl
@[simp] theorem setWreg_res (i : Nat) (v : Word) (s : State) : (setWreg i v s).res = s.res := rfl
@[simp] theorem setWreg_curX (i : Nat) (v : Word) (s : State) : (setWreg i v s).curX = s.curX := rfl
@[simp] theorem setWreg_curY (i : Nat) (v : Word) (s : State) : (setWreg i v s).curY = s.curY := rfl
@[simp] theorem setWreg_wreg (i : Nat) (v : Word) (s : State) : (setWreg i v s).wreg = bankSet s.wreg i v := rfl
@[simp] theorem setWreg_rreg (i : Nat) (v : Word) (s : State) : (setWreg i v s).rreg = s.rreg := rfl
@[simp] theorem setWreg_name (i : Nat) (v : Word) (s : State) : (setWreg i v s).name = s.name := rfl
@[simp] theorem setWreg_cand (i : Nat) (v : Word) (s : State) : (setWreg i v s).cand = s.cand := rfl
@[simp] theorem setWreg_tstate (i : Nat) (v : Word) (s : State) : (setWreg i v s).tstate = s.tstate := rfl
@[simp] theorem setWreg_traceRev (i : Nat) (v : Word) (s : State) : (setWreg i v s).traceRev = s.traceRev := rfl
@[simp] theorem setWreg_answers (i : Nat) (v : Word) (s : State) : (setWreg i v s).answers = s.answers := rfl
@[simp] theorem setWreg_sampleNo (i : Nat) (v : Word) (s : State) : (setWreg i v s).sampleNo = s.sampleNo := rfl

/-! ### `setRreg` -/

@[simp] theorem setRreg_cfg (i : Nat) (v : Word) (s : State) : (setRreg i v s).cfg = s.cfg := rfl
@[simp] theorem setRreg_stream (i : Nat) (v : Word) (s : State) : (setRreg i v s).stream = s.stream := rfl
@[simp] theorem setRreg_cp (i : Nat) (v : Word) (s : State) : (setRreg i v s).cp = s.cp := rfl
@[simp] theorem setRreg_sdaDrv (i : Nat) (v : Word) (s : State) : (setRreg i v s).sdaDrv = s.sdaDrv := rfl
@[simp] theorem setRreg_sclDrv (i : Nat) (v : Word) (s : State) : (setRreg i v s).sclDrv = s.sclDrv := rfl
@[simp] theorem setRreg_res (i : Nat) (v : Word) (s : State) : (setRreg i v s).res = s.res := rfl
@[simp] theorem setRreg_curX (i : Nat) (v : Word) (s : State) : (setRreg i v s).curX = s.curX := rfl
@[simp] theorem setRreg_curY (i : Nat) (v : Word) (s : State) : (setRreg i v s).curY = s.curY := rfl
@[simp] theorem setRreg_wreg (i : Nat) (v : Word) (s : State) : (setRreg i v s).wreg = s.wreg := rfl
@[simp] theorem setRreg_rreg (i : Nat) (v : Word) (s : State) : (setRreg i v s).rreg = bankSet s.rreg i v := rfl
@[simp] theorem setRreg_name (i : Nat) (v : Word) (s : State) : (setRreg i v s).name = s.name := rfl
@[simp] theorem setRreg_cand (i : Nat) (v : Word) (s : State) : (setRreg i v s).cand = s.cand := rfl
@[simp] theorem setRreg_tstate (i : Nat) (v : Word) (s : State) : (setRreg i v s).tstate = s.tstate := rfl
@[simp] theorem setRreg_traceRev (i : Nat) (v : Word) (s : State) : (setRreg i v s).traceRev = s.traceRev := rfl
@[simp] theorem setRreg_answers (i : Nat) (v : Word) (s : State) : (setRreg i v s).answers = s.answers := rfl
@[simp] theorem setRreg_sampleNo (i : Nat) (v : Word) (s : State) : (setRreg i v s).sampleNo = s.sampleNo := rfl

/-! ### `setTstate` -/

@[simp] theorem setTstate_cfg (t : TState) (s : State) : (setTstate t s).cfg = s.cfg := rfl
@[simp] theorem setTstate_stream (t : TState) (s : State) : (setTstate t s).stream = s.stream := rfl
@[simp] theorem setTstate_cp (t : TState) (s : State) : (setTstate t s).cp = s.cp := rfl
@[simp] theorem setTstate_sdaDrv (t : TState) (s : State) : (setTstate t s).sdaDrv = s.sdaDrv := rfl
@[simp] theorem setTstate_sclDrv (t : TState) (s : State) : (setTstate t s).sclDrv = s.sclDrv := rfl
@[simp] theorem setTstate_res (t : TState) (s : State) : (setTstate t s).res = s.res := rfl
@[simp] theorem setTstate_curX (t : TState) (s : State) : (setTstate t s).curX = s.curX := rfl
@[simp] theorem setTstate_curY (t : TState) (s : State) : (setTstate t s).curY = s.curY := rfl
@[simp] theorem setTstate_wreg (t : TState) (s : State) : (setTstate t s).wreg = s.wreg := rfl
@[simp] theorem setTstate_rreg (t : TState) (s : State) : (setTstate t s).rreg = s.rreg := rfl
@[simp] theorem setTstate_name (t : TState) (s : State) : (setTstate t s).name = s.name := rfl
@[simp] theorem setTstate_cand (t : TState) (s : State) : (setTstate t s).cand = s.cand := rfl
@[simp] theorem setTstate_tstate (t : TState) (s : State) : (setTstate t s).tstate = t := rfl
@[simp] theorem setTstate_traceRev (t : TState) (s : State) : (setTstate t s).traceRev = s.traceRev := rfl
@[simp] theorem setTstate_answers (t : TState) (s : State) : (setTstate t s).answers = s.answers := rfl
@[simp] theorem setTstate_sampleNo (t : TState) (s : State) : (setTstate t s).sampleNo = s.sampleNo := rfl

/-! ### `clearName` -/

@[simp] theorem clearName_cfg (s : State) : (clearName s).cfg = s.cfg := rfl
@[simp] theorem clearName_stream (s : State) : (clearName s).stream = s.stream := rfl
@[simp] theorem clearName_cp (s : State) : (clearName s).cp = s.cp := rfl
@[simp] theorem clearName_sdaDrv (s : State) : (clearName s).sdaDrv = s.sdaDrv := rfl
@[simp] theorem clearName_sclDrv (s : State) : (clearName s).sclDrv = s.sclDrv := rfl
@[simp] theorem clearName_res (s : State) : (clearName s).res = s.res := rfl
@[simp] theorem clearName_curX (s : State) : (clearName s).curX = s.curX := rfl
@[simp] theorem clearName_curY (s : State) : (clearName s).curY = s.curY := rfl
@[simp] theorem clearName_wreg (s : State) : (clearName s).wreg = s.wreg := rfl
@[simp] theorem clearName_rreg (s : State) : (clearName s).rreg = s.rreg := rfl
@[simp] theorem clearName_name (s : State) : (clearName s).name = blankSlots s.name := rfl
@[simp] theorem clearName_cand (s : State) : (clearName s).cand = s.cand := rfl
@[simp] theorem clearName_tstate (s : State) : (clearName s).tstate = s.tstate := rfl
@[simp] theorem clearName_traceRev (s : State) : (clearName s).traceRev = s.traceRev := rfl
@[simp] theorem clearName_answers (s : State) : (clearName s).answers = s.answers := rfl
@[simp] theorem clearName_sampleNo (s : State) : (clearName s).sampleNo = s.sampleNo := rfl

/-! ### `emit` -/

@[simp] theorem emit_cfg (evs : List Event) (s : State) : (emit evs s).cfg = s.cfg := rfl
@[simp] theorem emit_stream (evs : List Event) (s : State) : (emit evs s).stream = s.stream := rfl
@[simp] theorem emit_cp (evs : List Event) (s : State) : (emit evs s).cp = s.cp := rfl
@[simp] theorem emit_sdaDrv (evs : List Event) (s : State) : (emit evs s).sdaDrv = (replay (s.sdaDrv, s.sclDrv) evs).1 := rfl
@[simp] theorem emit_sclDrv (evs : List Event) (s : State) : (emit evs s).sclDrv = (replay (s.sdaDrv, s.sclDrv) evs).2 := rfl
@[simp] theorem emit_res (evs : List Event) (s : State) : (emit evs s).res = s.res := rfl
@[simp] theorem emit_curX (evs : List Event) (s : State) : (emit evs s).curX = s.curX := rfl
@[simp] theorem emit_curY (evs : List Event) (s : State) : (emit evs s).curY = s.curY := rfl
@[simp] theorem emit_wreg (evs : List Event) (s : State) : (emit evs s).wreg = s.wreg := rfl
@[simp] theorem emit_rreg (evs : List Event) (s : State) : (emit evs s).rreg = s.rreg := rfl
@[simp] theorem emit_name (evs : List Event) (s : State) : (emit evs s).name = s.name := rfl
@[simp] theorem emit_cand (evs : List Event) (s : State) : (emit evs s).cand = s.cand := rfl
@[simp] theorem emit_tstate (evs : List Event) (s : State) : (emit evs s).tstate = s.tstate := rfl
@[simp] theorem emit_traceRev (evs : List Event) (s : State) : (emit evs s).traceRev = evs.reverse ++ s.traceRev := rfl
@[simp] theorem emit_answers (evs : List Event) (s : State) : (emit evs s).answers = s.answers := rfl
@[simp] theorem emit_sampleNo (evs : List Event) (s : State) : (emit evs s).sampleNo = s.sampleNo := rfl

/-! ### `consume` -/

@[simp] theorem consume_cfg (n : Nat) (s : State) : (consume n s).cfg = s.cfg := rfl
@[simp] theorem consume_stream (n : Nat) (s : State) : (consume n s).stream = s.stream := rfl
@[simp] theorem consume_cp (n : Nat) (s : State) : (consume n s).cp = s.cp := rfl
@[simp] theorem consume_sdaDrv (n : Nat) (s : State) : (consume n s).sdaDrv = s.sdaDrv := rfl
@[simp] theorem consume_sclDrv (n : Nat) (s : State) : (consume n s).sclDrv = s.sclDrv := rfl
@[simp] theorem consume_res (n : Nat) (s : State) : (consume n s).res = s.res := rfl
@[simp] theorem consume_curX (n : Nat) (s : State) : (consume n s).curX = s.curX := rfl
@[simp] theorem consume_curY (n : Nat) (s : State) : (consume n s).curY = s.curY := rfl
@[simp] theorem consume_wreg (n : Nat) (s : State) : (consume n s).wreg = s.wreg := rfl
@[simp] theorem consume_rreg (n : Nat) (s : State) : (consume n s).rreg = s.rreg := rfl
@[simp] theorem consume_name (n : Nat) (s : State) : (consume n s).name = s.name := rfl
@[simp] theorem consume_cand (n : Nat) (s : State) : (consume n s).cand = s.cand := rfl
@[simp] theorem consume_tstate (n : Nat) (s : State) : (consume n s).tstate = s.tstate := rfl
@[simp] theorem consume_traceRev (n : Nat) (s : State) : (consume n s).traceRev = s.traceRev := rfl
@[simp] theorem consume_answers (n : Nat) (s : State) : (consume n s).answers = s.answers.drop n := rfl
@[simp] theorem consume_sampleNo (n : Nat) (s : State) : (consume n s).sampleNo = s.sampleNo + n := rfl

/-! ### `trace`, `sleep` -/

@[simp] theorem sleep_eq (n : Nat) (s : State) : sleep n s = s := rfl

theorem trace_emit (evs : List Event) (s : State) : (emit evs s).trace = s.trace ++ evs := by
  simp [State.trace]

end Sys2Proof.Machine
end

