-- ==== Sys2Proof/Laws/Bus.lean ====
section
/-!
SUPPORT. What each bus procedure can do, once: it emits its frame of Frames.lean, and a read also uses up eight
answers of the environment. Callers cite these and unfold no procedure.
-/

namespace Sys2Proof.Machine

/-! ### Events -/

@[simp] theorem emit_nil (s : State) : emit [] s = s := rfl

theorem replay_append (l : Bool × Bool) (xs ys : List Event) : replay l (xs ++ ys) = replay (replay l xs) ys := by
  simp [replay]

theorem emit_emit (xs ys : List Event) (s : State) : emit ys (emit xs s) = emit (xs ++ ys) s := by
  simp [emit, replay_append]

theorem emit_congr {xs ys : List Event} (h : xs = ys) (s : State) : emit xs s = emit ys s := by rw [h]

theorem consume_emit (n : Nat) (xs : List Event) (s : State) : consume n (emit xs s) = emit xs (consume n s) := rfl

theorem consume_consume (m n : Nat) (s : State) : consume n (consume m s) = consume (m + n) s := by
  simp [consume, Nat.add_assoc]

@[simp] theorem consume_zero (s : State) : consume 0 s = s := rfl

/-! ### Written bytes -/

theorem putBit_eq (s : State) (v : Bool) : putBit s v = emit (evBit v) s := by
  cases v <;> rfl

theorem foldl_putBit_eq (bits : List Bool) (s : State) : bits.foldl putBit s = emit (bits.flatMap evBit) s := by
  induction bits generalizing s with
  | nil => rfl
  | cons v rest ih => simp [ih, putBit_eq, emit_emit]

theorem write_eq (b : Byte) (s : State) : write b s = emit (evWrite b) s := by
  have h : ∀ t : State, clockPulse (sdaRel t) = emit (evBit true) t := fun _ => rfl
  simp [write, h, foldl_putBit_eq, emit_emit, evWrite]

theorem writeAll_eq (bs : List Byte) (s : State) : writeAll bs s = emit (bs.flatMap evWrite) s := by
  unfold writeAll
  induction bs generalizing s with
  | nil => rfl
  | cons b rest ih => rw [List.foldl_cons, ih, write_eq, emit_emit, List.flatMap_cons]

theorem start_eq (a : Byte) (s : State) : start a s = emit (evStart ++ evWrite a) s := by
  have h : sclLow (sdaLow s) = emit evStart s := rfl
  simp [start, h, write_eq, emit_emit]

theorem restart_eq (a : Byte) (s : State) : restart a s = emit (evRestart ++ evWrite a) s := by
  have h : sclRel (sdaRel s) = emit [.sdaRel, .sclRel] s := rfl
  simp [restart, h, start_eq, emit_emit, evRestart]

theorem stop_eq (s : State) : stop s = emit evStop s := rfl

/-- A whole transaction: start, address, payload, stop (R70). -/
theorem transaction_eq (a : Byte) (bs : List Byte) (s : State) :
    stop (writeAll bs (start a s)) = emit (evTransaction a bs) s := by
  simp [stop_eq, writeAll_eq, start_eq, emit_emit, evTransaction]

/-! ### Where the frames leave the latches (R104) -/

theorem replay_evWrite (l : Bool × Bool) (b : Byte) : replay l (evWrite b) = (false, true) := by
  simp [evWrite, evBit, replay, latchStep]

theorem replay_evStop (l : Bool × Bool) : replay l evStop = (false, false) := rfl

theorem replay_evTransaction (l : Bool × Bool) (a : Byte) (bs : List Byte) :
    replay l (evTransaction a bs) = (false, false) := by
  simp only [evTransaction, replay_append, replay_evStop]

theorem replay_evRead (l : Bool × Bool) (bits : List Bool) (k : Bool) : replay l (evRead bits k) = (k, true) := by
  have h : ∀ (bits : List Bool) (c : Bool), (replay (false, c) (bits.flatMap evReadBit)).1 = false := by
    intro bits
    induction bits with
    | nil => intro c; rfl
    | cons v rest ih => intro c; simpa [replay_append, evReadBit, replay, latchStep] using ih true
  have h' := h bits l.2
  cases k <;> simp_all [evRead, replay, latchStep, List.foldl_append]

/-! ### Read bytes -/

theorem drivesFrom_length (n : Nat) (as : List Bool) (k : Nat) : (drivesFrom n as k).length = n := by
  induction n generalizing as k with
  | zero => rfl
  | succ n ih => simp [drivesFrom, ih]

theorem nextDrives_length (n : Nat) (s : State) : (s.nextDrives n).length = n := drivesFrom_length ..

theorem nextDrives_succ (n : Nat) (s : State) : s.nextDrives (n + 1) = envDrive s :: (consume 1 s).nextDrives n := by
  simp only [State.nextDrives, drivesFrom, envDrive, consume]
  cases s.answers <;> rfl

@[simp] theorem nextDrives_emit (n : Nat) (evs : List Event) (s : State) :
    (emit evs s).nextDrives n = s.nextDrives n := rfl

theorem nextDrives_slice (m n a : Nat) (s : State) (h : a + n ≤ m) :
    ((s.nextDrives m).drop a).take n = (consume a s).nextDrives n := by
  induction a generalizing m s with
  | zero =>
    simp only [List.drop_zero, consume_zero]
    induction n generalizing m s with
    | zero => simp [State.nextDrives, drivesFrom]
    | succ n ih =>
      obtain ⟨m, rfl⟩ : ∃ m', m = m' + 1 := ⟨m - 1, by omega⟩
      simp [nextDrives_succ, ih m (consume 1 s) (by omega)]
  | succ a ih =>
    obtain ⟨m, rfl⟩ : ∃ m', m = m' + 1 := ⟨m - 1, by omega⟩
    rw [nextDrives_succ, List.drop_succ_cons, ih m (consume 1 s) (by omega), consume_consume, Nat.add_comm 1 a]

theorem readBits_eq (n : Nat) (d : Byte) (s : State) (h : s.sdaDrv = false) :
    readBits n d s =
      ((s.nextDrives n).foldl shiftIn d, emit ((s.nextDrives n).flatMap evReadBit) (consume n s)) := by
  induction n generalizing d s with
  | zero => rfl
  | succ n ih =>
    have hb : sampledBit (sclRel s) = envDrive s := by simp [sampledBit, h, envDrive]
    have hs : sclLow (sampleStep (sclRel s)) = emit (evReadBit (envDrive s)) (consume 1 s) := by
      simp [sclLow, sampleStep, sclRel, emit, evReadBit, replay, latchStep, consume, sampledBit, envDrive, h]
    rw [readBits]
    simp only [hb, hs]
    rw [ih _ _ (by simp [evReadBit, replay, latchStep, h])]
    simp [nextDrives_succ, emit_emit, consume_emit, consume_consume, Nat.add_comm 1 n]

theorem read_eq (k : Bool) (s : State) :
    read k s = (byteOf (s.nextDrives 8), emit (evRead (s.nextDrives 8) k) (consume 8 s)) := by
  have h0 : sdaRel s = emit [.sdaRel] s := rfl
  have h1 : ∀ t : State, clockPulse (if k then sdaLow t else t) =
      emit ((if k then [.sdaLow] else []) ++ [.sclRel, .sclLow]) t := by
    intro t; cases k <;> rfl
  simp only [read, h1]
  rw [readBits_eq _ _ _ rfl, h0]
  simp [emit_emit, consume_emit, byteOf, evRead]

/-! ### The command BUS.READ -/

theorem busReadEffect_eq (k : Byte) (s : State) :
    busReadEffect k s =
      setRes ((byteOf (s.nextDrives 8)).zeroExtend 16) (emit (evRead (s.nextDrives 8) (k == 1)) (consume 8 s)) := by
  simp [busReadEffect, read_eq]

end Sys2Proof.Machine
end

