-- ==== Sys2Proof/Laws/Decode.lean ====
section
/-!
SUPPORT. Small facts about the decoder and the encoder: byte order, strings, the opcode map.
-/

namespace Sys2Proof

theorem joinBytes_hi_lo (v : Word) : joinBytes (hiByte v) (loByte v) = v := by
  apply BitVec.eq_of_getLsbD_eq
  intro i hi
  simp only [joinBytes, hiByte, loByte, BitVec.getLsbD_append, BitVec.getLsbD_extractLsb']
  by_cases h : i < 8
  · simp [h]
  · have : 8 + (i - 8) = i := by omega
    have h' : i - 8 < 8 := by omega
    simp [h, this, h']

theorem hiByte_joinBytes (h l : Byte) : hiByte (joinBytes h l) = h := by
  apply BitVec.eq_of_getLsbD_eq
  intro i hi
  simp only [joinBytes, hiByte, BitVec.getLsbD_append, BitVec.getLsbD_extractLsb']
  simp [hi]

theorem loByte_joinBytes (h l : Byte) : loByte (joinBytes h l) = l := by
  apply BitVec.eq_of_getLsbD_eq
  intro i hi
  simp only [joinBytes, loByte, BitVec.getLsbD_append, BitVec.getLsbD_extractLsb']
  simp [hi]

theorem takeString_append (s rest : List Byte) (h : ∀ c ∈ s, c ≠ 0) : takeString (s ++ 0#8 :: rest) = some s := by
  induction s with
  | nil => rfl
  | cons c s ih =>
    have hc : c ≠ 0 := h c (by simp)
    have hs : ∀ x ∈ s, x ≠ 0 := fun x hx => h x (by simp [hx])
    simp only [List.cons_append, takeString, hc, if_false, ih hs, Option.map_some]

theorem takeString_none (s : List Byte) (h : ∀ c ∈ s, c ≠ 0) : takeString s = none := by
  induction s with
  | nil => rfl
  | cons c s ih =>
    have hc : c ≠ 0 := h c (by simp)
    have hs : ∀ x ∈ s, x ≠ 0 := fun x hx => h x (by simp [hx])
    simp only [takeString, hc, if_false, ih hs, Option.map_none]

theorem takeString_some {bytes s : List Byte} (h : takeString bytes = some s) : ∃ rest, bytes = s ++ 0#8 :: rest := by
  induction bytes generalizing s with
  | nil => simp [takeString] at h
  | cons c bytes ih =>
    by_cases hc : c = 0
    · simp only [takeString, hc, if_true, Option.some.injEq] at h
      exact ⟨bytes, by simp [← h, hc]⟩
    · simp only [takeString, hc, if_false, Option.map_eq_some_iff] at h
      obtain ⟨s', hs', rfl⟩ := h
      obtain ⟨rest, rfl⟩ := ih hs'
      exact ⟨rest, rfl⟩

theorem charOk_ne_zero {n : Nat} {c : Byte} (h : charOk n c = true) : c ≠ 0 := by
  rintro rfl
  simp [charOk] at h

/-- No opcode stands twice in the map (R63). -/
theorem opcodeMap_nodup : (opcodeMap.map Prod.fst).Nodup := by decide

end Sys2Proof
end

