-- ==== Sys2Proof/Laws/Display.lean ====
section
/-!
SUPPORT. What each display procedure can do, once: it emits its display transactions (Frames.lean) and moves the
cursor shadow; nothing else changes.
-/

namespace Sys2Proof.Machine

/-- A record takes every function as its `CURSOR_CMDS`: the table of `f`'s values sends `f`'s bytes (R7, log 6). -/
theorem cursorBytes_ofFn (c : Config) (f : Byte → Byte → List Byte) (col row : Byte) :
    cursorBytes { c with cursorCmds := .table (.ofFn fun x => .ofFn fun y => f (BitVec.ofFin x) (BitVec.ofFin y)) } col row =
      f col row := by
  simp [cursorBytes]

theorem setCursor_emit (x y : Byte) (evs : List Event) (s : State) :
    setCursor x y (emit evs s) = emit evs (setCursor x y s) := rfl

theorem setCursor_setCursor (x y x' y' : Byte) (s : State) :
    setCursor x y (setCursor x' y' s) = setCursor x y s := rfl

theorem setCursor_self (s : State) : setCursor s.curX s.curY s = s := rfl

@[simp] theorem evCursor_frame (c : Config) (x y : Byte) : evDisplayCmd c (cursorBytes c x y) = evCursor c x y := rfl

/-- A command transaction (R75). -/
theorem displayCmd_eq (bs : List Byte) (s : State) : stop (writeAll bs (cmdOpen s)) = emit (evDisplayCmd s.cfg bs) s := by
  simpa [cmdOpen, evDisplayCmd, writeAll] using transaction_eq (addrByte s.cfg.addrDisp false) (s.cfg.ctrlCmd :: bs) s

/-- A data transaction (R75). -/
theorem displayData_eq (bs : List Byte) (s : State) : stop (writeAll bs (dataOpen s)) = emit (evDisplayData s.cfg bs) s := by
  simpa [dataOpen, evDisplayData, writeAll] using transaction_eq (addrByte s.cfg.addrDisp false) (s.cfg.ctrlData :: bs) s

theorem setCursorSeq_eq (x y : Byte) (s : State) :
    setCursorSeq x y s = setCursor x y (emit (evCursor s.cfg x y) s) := by
  simp only [setCursorSeq, displayCmd_eq]
  rfl

/-! ### Texts (R116, R117, R121) -/

/-- The events of an opened data transaction, up to its payload. -/
def evDataOpen (c : Config) : List Event := evStart ++ evWrite (addrByte c.addrDisp false) ++ evWrite c.ctrlData

theorem dataOpen_eq (s : State) : dataOpen s = emit (evDataOpen s.cfg) s := by
  simp [dataOpen, start_eq, write_eq, emit_emit, evDataOpen]

theorem evDisplayData_open (c : Config) (bs : List Byte) :
    evDisplayData c bs = evDataOpen c ++ bs.flatMap evWrite ++ evStop := by
  simp [evDisplayData, evTransaction, evDataOpen]

/-- One character: its six bytes, and when the cursor passes column 122 the wrap's three transactions. -/
theorem plot_eq (ch : Byte) (s : State) :
    plot ch s = if wrapLimit < s.curX + 6 then
        setCursor 0 (s.curY + 1)
          (emit ((glyphBytes s.cfg ch).flatMap evWrite ++ evStop ++ evCursor s.cfg 0 (s.curY + 1) ++ evDataOpen s.cfg) s)
      else setCursor (s.curX + 6) s.curY (emit ((glyphBytes s.cfg ch).flatMap evWrite) s) := by
  simp only [plot, writeAll_eq, emit_curX, setCurX_curX]
  split
  · simp only [wrap, dataOpen_eq, setCursorSeq_eq, stop_eq]
    simp only [emit_cfg, setCurX_cfg, emit_curY, setCurX_curY, setCursor_cfg]
    have h : ∀ (x : Byte) (evs : List Event), setCurX x (emit evs s) = emit evs (setCurX x s) := fun _ _ => rfl
    simp only [h, emit_emit, setCursor_emit]
    rfl
  · rfl

theorem cursorStep_eq (x y : Byte) :
    cursorStep (x, y) = if wrapLimit < x + 6 then (0, y + 1) else (x + 6, y) := rfl

/-- The events of the rest of a text inside an open data transaction, its final stop included. -/
theorem plotAll_stop_eq (cs : List Byte) (s : State) :
    stop (plotAll cs s) =
      setCursor (cursorAfter cs.length (s.curX, s.curY)).1 (cursorAfter cs.length (s.curX, s.curY)).2
        (emit ((groupBytes s.cfg (pageGroups s.curX cs).1).flatMap evWrite ++ evStop ++
          evPages s.cfg s.curY (pageGroups s.curX cs).2) s) := by
  induction cs generalizing s with
  | nil => simp [plotAll, stop_eq, pageGroups, groupBytes, evPages, cursorAfter]; rfl
  | cons ch rest ih =>
    have hp : plotAll (ch :: rest) s = plotAll rest (plot ch s) := rfl
    rw [hp, ih, plot_eq]
    split
    · rename_i h
      simp only [setCursor_cfg, setCursor_curX, setCursor_curY, emit_cfg, emit_curX, emit_curY, setCursor_emit,
        setCursor_setCursor, emit_emit, pageGroups, h, if_true, List.length_cons, cursorAfter, cursorStep_eq]
      refine emit_congr ?_ _
      simp [groupBytes, evPages, evDisplayData_open]
    · rename_i h
      simp only [setCursor_cfg, setCursor_curX, setCursor_curY, emit_cfg, emit_curX, emit_curY, setCursor_emit,
        setCursor_setCursor, emit_emit, pageGroups, h, if_false, List.length_cons, cursorAfter, cursorStep_eq]
      refine emit_congr ?_ _
      simp [groupBytes]

/-- A printed text (R121): its page transactions, and the cursor it ends at. -/
theorem printText_eq (cs : List Byte) (s : State) :
    printText cs s =
      setCursor (cursorAfter cs.length (s.curX, s.curY)).1 (cursorAfter cs.length (s.curX, s.curY)).2
        (emit (evText s.cfg s.curX s.curY cs) s) := by
  rw [printText, plotAll_stop_eq, dataOpen_eq]
  simp only [emit_cfg, emit_curX, emit_curY, emit_emit, evText, evDisplayData_open, List.append_assoc]

/-! ### Clearing (R118, R119) -/

theorem clearCols_eq (n : Nat) (s : State) :
    clearCols n s = setCursor (s.curX + BitVec.ofNat 8 n) s.curY
      (emit ((List.replicate n (0x00 : Byte)).flatMap evWrite) s) := by
  induction n generalizing s with
  | zero => simp [clearCols, setCursor]
  | succ n ih =>
    simp only [clearCols]
    rw [ih, write_eq]
    have h : ∀ (x : Byte) (evs : List Event), setCurX x (emit evs s) = emit evs (setCurX x s) := fun _ _ => rfl
    simp only [h, emit_emit, emit_curX, setCurX_curX, emit_curY, setCurX_curY, List.replicate_succ, List.flatMap_cons]
    have hx : s.curX + 1 + BitVec.ofNat 8 n = s.curX + BitVec.ofNat 8 (n + 1) := by
      rw [BitVec.add_assoc]; congr 1; apply BitVec.eq_of_toNat_eq; simp [Nat.add_comm]
    rw [hx]
    rfl

theorem clearLine_eq (s : State) :
    clearLine s = setCursor 0 (s.curY + 1) (emit (evClearLine s.cfg s.curX s.curY) s) := by
  simp only [clearLine, clearCols_eq, setCursorSeq_eq, stop_eq, dataOpen_eq]
  simp only [emit_cfg, emit_curY, setCursor_curY, setCursor_cfg, setCursor_emit, emit_emit, setCursor_setCursor]
  simp only [evClearLine, evDisplayData_open, List.append_assoc]

/-! ### Where display frames leave the latches -/

theorem replay_evDisplayCmd (l : Bool × Bool) (c : Config) (bs : List Byte) :
    replay l (evDisplayCmd c bs) = (false, false) := replay_evTransaction ..

theorem replay_evDisplayData (l : Bool × Bool) (c : Config) (bs : List Byte) :
    replay l (evDisplayData c bs) = (false, false) := replay_evTransaction ..

theorem replay_evPages (c : Config) (y : Byte) (gs : List (List Byte)) :
    replay (false, false) (evPages c y gs) = (false, false) := by
  induction gs generalizing y with
  | nil => rfl
  | cons g gs ih => rw [evPages, replay_append, replay_append, replay_evDisplayData, ih]

theorem replay_evText (l : Bool × Bool) (c : Config) (x y : Byte) (cs : List Byte) :
    replay l (evText c x y cs) = (false, false) := by
  rw [evText, replay_append, replay_evDisplayData, replay_evPages]

theorem replay_evClearLine (l : Bool × Bool) (c : Config) (x y : Byte) :
    replay l (evClearLine c x y) = (false, false) := by
  rw [evClearLine, replay_append, evCursor, replay_evDisplayCmd]

end Sys2Proof.Machine
end

