-- ==== Sys2Proof/Laws/Frames.lean ====
section
/-!
SUPPORT. Lengths of the wire formats and the samples they hold: written frames hold none, a read byte its eight bits.
-/

namespace Sys2Proof.Machine

theorem sampledBits_append (a b : List Event) : sampledBits (a ++ b) = sampledBits a ++ sampledBits b := by
  simp [sampledBits]

theorem sampledBits_evWrite (b : Byte) : sampledBits (evWrite b) = [] := by
  have h : ∀ v, sampledBits (evBit v) = [] := by intro v; cases v <;> rfl
  simp [evWrite, sampledBits_append, msbBits, h]

theorem sampledBits_writes (bs : List Byte) : sampledBits (bs.flatMap evWrite) = [] := by
  induction bs with
  | nil => rfl
  | cons b bs ih => simp [sampledBits_append, sampledBits_evWrite, ih]

theorem sampledBits_evTransaction (a : Byte) (bs : List Byte) : sampledBits (evTransaction a bs) = [] := by
  simp only [evTransaction, sampledBits_append, sampledBits_evWrite, sampledBits_writes]
  rfl

theorem sampledBits_evRead (bits : List Bool) (k : Bool) : sampledBits (evRead bits k) = bits := by
  have h : sampledBits (bits.flatMap evReadBit) = bits := by
    induction bits with
    | nil => rfl
    | cons b bs ih => rw [List.flatMap_cons, sampledBits_append, ih]; rfl
  simp only [evRead, sampledBits_append, h]
  cases k <;> simp [sampledBits]

theorem evWrite_length (b : Byte) : (evWrite b).length = 27 := by
  have h : ∀ v, (evBit v).length = 3 := fun _ => rfl
  simp [evWrite, msbBits, h]

theorem writes_length (bs : List Byte) : (bs.flatMap evWrite).length = 27 * bs.length := by
  induction bs with
  | nil => rfl
  | cons b bs ih => simp [evWrite_length, ih]; omega

theorem evTransaction_length (a : Byte) (bs : List Byte) : (evTransaction a bs).length = 32 + 27 * bs.length := by
  simp only [evTransaction, List.length_append, evWrite_length, writes_length]
  simp only [evStart, evStop, List.length_cons, List.length_nil]
  omega

theorem evRead_length (bits : List Bool) (k : Bool) :
    (evRead bits k).length = 3 * bits.length + (if k then 4 else 3) := by
  have h : (bits.flatMap evReadBit).length = 3 * bits.length := by
    induction bits with
    | nil => rfl
    | cons a b ih => simp [evReadBit, ih]; omega
  cases k <;> simp [evRead, h]

end Sys2Proof.Machine
end

