-- ==== Sys2Proof/Laws/PerInstr.lean ====
section
/-!
SUPPORT. One fact per instruction, as syntax: its encoding has the length of spec/30_encoding.md R62 and begins with
its opcode byte (R61).
-/

namespace Sys2Proof.Laws.EncodedLength

/-- The encoding is as long as the instruction's length and begins with its opcode. -/
def Statement (i : Sys2Proof.Instr) : Prop :=
  (Sys2Proof.encode i).length = i.length ∧ (Sys2Proof.encode i).head? = some i.opcode

theorem busStart (a : Byte) : Statement (.busStart a) := ⟨rfl, rfl⟩
theorem busWrite (b : Byte) : Statement (.busWrite b) := ⟨rfl, rfl⟩
theorem busRead (k : Byte) : Statement (.busRead k) := ⟨rfl, rfl⟩
theorem busRestart (a : Byte) : Statement (.busRestart a) := ⟨rfl, rfl⟩
theorem busStop : Statement .busStop := ⟨rfl, rfl⟩
theorem dspInit : Statement .dspInit := ⟨rfl, rfl⟩
theorem dspSetcursor (col row : Byte) : Statement (.dspSetcursor col row) := ⟨rfl, rfl⟩
theorem dspClearline : Statement .dspClearline := ⟨rfl, rfl⟩
theorem dspClearscreen : Statement .dspClearscreen := ⟨rfl, rfl⟩
theorem dspPrintchar (c : Byte) : Statement (.dspPrintchar c) := ⟨rfl, rfl⟩
theorem dspPrintstr (s : List Byte) : Statement (.dspPrintstr s) := ⟨by simp [encode, Instr.operandBytes, Instr.length], rfl⟩
theorem dspPrintline (s : List Byte) : Statement (.dspPrintline s) := ⟨by simp [encode, Instr.operandBytes, Instr.length], rfl⟩
theorem dspPrintnum (value : Word) (digits decimal : Byte) : Statement (.dspPrintnum value digits decimal) := ⟨rfl, rfl⟩
theorem tunInit : Statement .tunInit := ⟨rfl, rfl⟩
theorem tunSetvol (level : Byte) : Statement (.tunSetvol level) := ⟨rfl, rfl⟩
theorem tunSetchan (chan : Word) : Statement (.tunSetchan chan) := ⟨rfl, rfl⟩
theorem tunSeek : Statement .tunSeek := ⟨rfl, rfl⟩
theorem tunWait : Statement .tunWait := ⟨rfl, rfl⟩
theorem tunUpdate : Statement .tunUpdate := ⟨rfl, rfl⟩
theorem tunFreq : Statement .tunFreq := ⟨rfl, rfl⟩

end Sys2Proof.Laws.EncodedLength
end

