-- ==== Sys2Proof/Laws/Tuner.lean ====
section
/-!
SUPPORT. What each tuner procedure can do, once: it emits its frame (Frames.lean) and changes the registers its
rule names; nothing else changes.
-/

namespace Sys2Proof.Machine

/-! ### Register banks -/

@[simp] theorem bankGet_bankSet_self (b : Vector Word 6) (i : Nat) (v : Word) (h : i < 6) :
    bankGet (bankSet b i v) i = v := by
  simp [bankGet, bankSet, h]

@[simp] theorem bankGet_bankSet_of_ne (b : Vector Word 6) (i j : Nat) (v : Word) (h : i ≠ j) :
    bankGet (bankSet b i v) j = bankGet b j := by
  simp [bankGet, bankSet, h]

theorem bankGet_bankSet (b : Vector Word 6) (i j : Nat) (v : Word) (h : i < 6) :
    bankGet (bankSet b i v) j = if i = j then v else bankGet b j := by
  split
  · subst_vars; simp [h]
  · simp [*]

theorem bank_ext {a b : Vector Word 6} (h : ∀ i, i < 6 → bankGet a i = bankGet b i) : a = b := by
  apply Vector.ext
  intro i hi
  simpa [bankGet, hi] using h i hi

theorem slotGet_slotSet (b : Vector Byte 9) (i j : Nat) (c : Byte) (h : i < 9) :
    slotGet (slotSet b i c) j = if i = j then c else slotGet b j := by
  simp only [slotGet, slotSet, Vector.getElem?_setIfInBounds]
  split <;> simp [*]

theorem slotGet_blankSlots (b : Vector Byte 9) (i : Nat) :
    slotGet (blankSlots b) i = if i < 8 then 0x20 else slotGet b i := by
  by_cases h : i < 8
  · have h9 : i < 9 := by omega
    have hne : i ≠ 8 := by omega
    simp [slotGet, blankSlots, blank, h, h9]
  · by_cases h8 : i = 8
    · subst h8; simp [slotGet, blankSlots]
    · have h9 : ¬ i < 9 := by omega
      simp [slotGet, h, h9]

/-! ### Write transfers (R141, R142) -/

theorem writeOne_eq (i : Nat) (s : State) : writeOne i s = emit (evWriteOne s.cfg i (wregAt s i)) s :=
  transaction_eq ..

theorem writeBank_eq (s : State) : writeBank s = emit (evWriteBank s.cfg s.wreg) s :=
  transaction_eq ..

theorem setWreg_emit (i : Nat) (v : Word) (evs : List Event) (s : State) :
    setWreg i v (emit evs s) = emit evs (setWreg i v s) := rfl

theorem setTstate_emit (t : TState) (evs : List Event) (s : State) :
    setTstate t (emit evs s) = emit evs (setTstate t s) := rfl

@[simp] theorem wregAt_emit (evs : List Event) (s : State) (i : Nat) : wregAt (emit evs s) i = wregAt s i := rfl

@[simp] theorem wregAt_setWreg_self (i : Nat) (v : Word) (s : State) (h : i < 6) : wregAt (setWreg i v s) i = v := by
  simp [wregAt, h]

theorem setWreg_setWreg (i : Nat) (v w : Word) (s : State) : setWreg i w (setWreg i v s) = setWreg i w s := by
  simp only [setWreg, bankSet]
  congr 1
  apply Vector.ext
  intro j hj
  simp only [Vector.getElem_setIfInBounds]
  split <;> rfl

/-- SETVOL_SEQ: the merged register in the cache and on the bus. -/
theorem setVolSeq_eq (level : Byte) (s : State) (h : s.cfg.rVol < 6) :
    setVolSeq level s = setWreg s.cfg.rVol (mergeVol s.cfg (wregAt s s.cfg.rVol) level)
      (emit (evWriteOne s.cfg s.cfg.rVol (mergeVol s.cfg (wregAt s s.cfg.rVol) level)) s) := by
  simp only [setVolSeq, writeOne_eq, setWreg_cfg, wregAt_setWreg_self _ _ _ h, setWreg_emit]

/-! ### Where tuner frames leave the latches -/

theorem replay_evWriteOne (l : Bool × Bool) (c : Config) (i : Nat) (v : Word) :
    replay l (evWriteOne c i v) = (false, false) := replay_evTransaction ..

theorem replay_evWriteBank (l : Bool × Bool) (c : Config) (w : Vector Word 6) :
    replay l (evWriteBank c w) = (false, false) := replay_evTransaction ..

theorem replay_evReadBank (l : Bool × Bool) (c : Config) (bits : List Bool) :
    replay l (evReadBank c bits) = (false, false) := by
  simp only [evReadBank, replay_append, replay_evStop]

/-! ### The read transfer (R143) -/

theorem readReg_eq (j : Nat) (s : State) :
    readReg s j =
      emit (evRead (s.nextDrives 8) true ++ evRead ((consume 8 s).nextDrives 8) (decide (j < 5)))
        (setRreg j (joinBytes (byteOf (s.nextDrives 8)) (byteOf ((consume 8 s).nextDrives 8))) (consume 16 s)) := by
  have h : ∀ (i : Nat) (v : Word) (evs : List Event) (s : State), setRreg i v (emit evs s) = emit evs (setRreg i v s) :=
    fun _ _ _ _ => rfl
  simp only [readReg, read_eq, nextDrives_emit, consume_emit, consume_consume, emit_emit, h]

theorem consume_setRreg (n i : Nat) (v : Word) (s : State) : consume n (setRreg i v s) = setRreg i v (consume n s) := rfl

theorem nextDrives_setRreg (n i : Nat) (v : Word) (s : State) : (setRreg i v s).nextDrives n = s.nextDrives n := rfl

theorem setRreg_chain (s : State) (v0 v1 v2 v3 v4 v5 : Word) :
    setRreg 5 v5 (setRreg 4 v4 (setRreg 3 v3 (setRreg 2 v2 (setRreg 1 v1 (setRreg 0 v0 s))))) =
      { s with rreg := #v[v0, v1, v2, v3, v4, v5] } := by
  have h : bankSet (bankSet (bankSet (bankSet (bankSet (bankSet s.rreg 0 v0) 1 v1) 2 v2) 3 v3) 4 v4) 5 v5 =
      #v[v0, v1, v2, v3, v4, v5] := by
    apply bank_ext
    intro i hi
    have hc : i = 0 ∨ i = 1 ∨ i = 2 ∨ i = 3 ∨ i = 4 ∨ i = 5 := by omega
    rcases hc with rfl | rfl | rfl | rfl | rfl | rfl <;> simp [bankGet, bankSet]
  simp only [setRreg, h]

theorem setRreg_emit (i : Nat) (v : Word) (evs : List Event) (s : State) :
    setRreg i v (emit evs s) = emit evs (setRreg i v s) := rfl

/-- READ_ALL: the frame of R80 with the 96 answers, and the bank they spell. -/
theorem readBank_eq (s : State) :
    readBank s =
      emit (evReadBank s.cfg (s.nextDrives 96)) { consume 96 s with rreg := bankOf (s.nextDrives 96) } := by
  have slice : ∀ a, a + 8 ≤ 96 → ((s.nextDrives 96).drop a).take 8 = (consume a s).nextDrives 8 :=
    fun a h => nextDrives_slice 96 8 a s h
  simp only [readBank, List.foldl_cons, List.foldl_nil, readReg_eq, start_eq, stop_eq]
  simp only [nextDrives_emit, consume_emit, setRreg_emit, emit_emit, consume_setRreg, nextDrives_setRreg,
    consume_consume, setRreg_chain]
  have hb : bankOf (s.nextDrives 96) =
      #v[joinBytes (byteOf ((consume 0 s).nextDrives 8)) (byteOf ((consume 8 s).nextDrives 8)),
        joinBytes (byteOf ((consume 16 s).nextDrives 8)) (byteOf ((consume 24 s).nextDrives 8)),
        joinBytes (byteOf ((consume 32 s).nextDrives 8)) (byteOf ((consume 40 s).nextDrives 8)),
        joinBytes (byteOf ((consume 48 s).nextDrives 8)) (byteOf ((consume 56 s).nextDrives 8)),
        joinBytes (byteOf ((consume 64 s).nextDrives 8)) (byteOf ((consume 72 s).nextDrives 8)),
        joinBytes (byteOf ((consume 80 s).nextDrives 8)) (byteOf ((consume 88 s).nextDrives 8))] := by
    simp only [bankOf, wordOf, slice _ (by omega : (16 * 0) + 8 ≤ 96), slice _ (by omega : (16 * 0 + 8) + 8 ≤ 96),
      slice _ (by omega : (16 * 1) + 8 ≤ 96), slice _ (by omega : (16 * 1 + 8) + 8 ≤ 96),
      slice _ (by omega : (16 * 2) + 8 ≤ 96), slice _ (by omega : (16 * 2 + 8) + 8 ≤ 96),
      slice _ (by omega : (16 * 3) + 8 ≤ 96), slice _ (by omega : (16 * 3 + 8) + 8 ≤ 96),
      slice _ (by omega : (16 * 4) + 8 ≤ 96), slice _ (by omega : (16 * 4 + 8) + 8 ≤ 96),
      slice _ (by omega : (16 * 5) + 8 ≤ 96), slice _ (by omega : (16 * 5 + 8) + 8 ≤ 96)]
  have he : evReadBank s.cfg (s.nextDrives 96) = evStart ++ evWrite (addrByte s.cfg.addrTunSeq true) ++
      [0, 1, 2, 3, 4, 5, 6, 7, 8, 9, 10, 11].flatMap
        (fun n => evRead ((consume (8 * n) s).nextDrives 8) (decide (n < 11))) ++ evStop := by
    have hr : List.range 12 = [0, 1, 2, 3, 4, 5, 6, 7, 8, 9, 10, 11] := by decide
    simp only [evReadBank, hr, List.flatMap_cons, List.flatMap_nil,
      slice _ (by omega : (8 * 0) + 8 ≤ 96), slice _ (by omega : (8 * 1) + 8 ≤ 96), slice _ (by omega : (8 * 2) + 8 ≤ 96),
      slice _ (by omega : (8 * 3) + 8 ≤ 96), slice _ (by omega : (8 * 4) + 8 ≤ 96), slice _ (by omega : (8 * 5) + 8 ≤ 96),
      slice _ (by omega : (8 * 6) + 8 ≤ 96), slice _ (by omega : (8 * 7) + 8 ≤ 96), slice _ (by omega : (8 * 8) + 8 ≤ 96),
      slice _ (by omega : (8 * 9) + 8 ≤ 96), slice _ (by omega : (8 * 10) + 8 ≤ 96), slice _ (by omega : (8 * 11) + 8 ≤ 96)]
  rw [hb, he]
  simp [List.append_assoc]

/-! ### Flag and radio-data parts of TUN.UPDATE (R150, R158) -/

/-- One slot of RDS_DECODE leaves every other slot of both buffers alone. -/
theorem debounceSlot_other (bufs : Vector Byte 9 × Vector Byte 9) (slot j : Nat) (c : Byte) (h : slot < 9) (hj : slot ≠ j) :
    slotGet (debounceSlot bufs slot c).1 j = slotGet bufs.1 j ∧
    slotGet (debounceSlot bufs slot c).2 j = slotGet bufs.2 j := by
  unfold debounceSlot
  split <;> simp [slotGet_slotSet _ _ _ _ h, hj]

/-- One slot of RDS_DECODE: afterwards the candidate is the character, and the name takes it on a repeat match. -/
theorem debounceSlot_self (bufs : Vector Byte 9 × Vector Byte 9) (slot : Nat) (c : Byte) (h : slot < 9) :
    slotGet (debounceSlot bufs slot c).2 slot = c ∧
    slotGet (debounceSlot bufs slot c).1 slot = if slotGet bufs.2 slot = c then c else slotGet bufs.1 slot := by
  unfold debounceSlot
  split <;> simp_all [slotGet_slotSet]

theorem rdsDecode_emit (evs : List Event) (s : State) : rdsDecode (emit evs s) = emit evs (rdsDecode s) := rfl

theorem rdsDecode_setWreg (i : Nat) (v : Word) (s : State) : rdsDecode (setWreg i v s) = setWreg i v (rdsDecode s) := rfl

/-- The completion branch writes `WREG` and `TSTATE` only: both flags cleared, `SEEKING` and `TUNING` ended. -/
theorem retireFlags_eq (s : State) :
    retireFlags s = { s with
      wreg := (clearBits s.cfg.rSeek s.cfg.mSeek (clearBits s.cfg.rChan s.cfg.mTune s)).wreg
      tstate := if s.tstate = .seeking ∨ s.tstate = .tuning then .idle else s.tstate } := by
  simp only [retireFlags]
  split <;> rfl

theorem rdsDecode_eq (s : State) :
    rdsDecode s = { s with
      name := (decodeGroup s.cfg s.rreg (s.name, s.cand)).1
      cand := (decodeGroup s.cfg s.rreg (s.name, s.cand)).2 } := rfl

/-- The radio-data branch: two write-one frames, then the decode. -/
theorem requestAndDecode_eq (s : State) (h : s.cfg.rRdsreq < 6) :
    requestAndDecode s =
      emit (evWriteOne s.cfg s.cfg.rRdsreq (wregAt s s.cfg.rRdsreq &&& ~~~s.cfg.mRdsreq) ++
          evWriteOne s.cfg s.cfg.rRdsreq ((wregAt s s.cfg.rRdsreq &&& ~~~s.cfg.mRdsreq) ||| s.cfg.mRdsreq))
        (setWreg s.cfg.rRdsreq ((wregAt s s.cfg.rRdsreq &&& ~~~s.cfg.mRdsreq) ||| s.cfg.mRdsreq) (rdsDecode s)) := by
  simp only [requestAndDecode, writeOne_eq, setBits, clearBits, setWreg_cfg, emit_cfg, wregAt_emit, setWreg_emit, emit_emit,
    wregAt_setWreg_self _ _ _ h, rdsDecode_emit, rdsDecode_setWreg]
  rw [setWreg_setWreg]

end Sys2Proof.Machine
end

