-- ==== Sys2Proof/Laws/Step.lean ====
section
/-!
SUPPORT. What beginning and ending a command can do, once: `guarded` and `perform` answer a next state exactly when
the configuration and the operands are legal. And the bounds a legal configuration gives.
-/

namespace Sys2Proof.Machine

theorem guarded_ok {i : Instr} {s k : State} (hc : configOk s.cfg = true) (hw : i.wellFormed s.cfg.nGlyph = true) :
    guarded i s k = .next k := by
  simp [guarded, hc, hw]

theorem perform_ok {i : Instr} {s : State} {f : State → State} (hc : configOk s.cfg = true)
    (hw : i.wellFormed s.cfg.nGlyph = true) : perform i s f = .next (advance i.length (f s)) :=
  guarded_ok hc hw

/-- `guarded` answers next only for a legal configuration and legal operands, and then with its argument. -/
theorem guarded_next {i : Instr} {s k t : State} (h : guarded i s k = .next t) :
    configOk s.cfg = true ∧ i.wellFormed s.cfg.nGlyph = true ∧ t = k := by
  unfold guarded at h
  split at h
  · split at h
    · exact ⟨‹_›, ‹_›, by cases h; rfl⟩
    · cases h
  · cases h

theorem guarded_bad {i : Instr} {s k : State} (hc : configOk s.cfg = false) : guarded i s k = .refused .badConfiguration := by
  simp [guarded, hc]

theorem guarded_reserved {i : Instr} {s k : State} (hc : configOk s.cfg = true)
    (hw : i.wellFormed s.cfg.nGlyph = false) : guarded i s k = .refused .reservedOperand := by
  simp [guarded, hc, hw]

theorem guarded_not_fault {i : Instr} {s k : State} {f : Fault} : guarded i s k ≠ .fault f := nomatch f

/-- Every meaning is a guarded next state: `exec` answers next, or one of the two refusals of `guarded`. -/
theorem exec_guarded (i : Instr) (s : State) : ∃ k, exec i s = guarded i s k := by
  cases i <;> exact ⟨_, rfl⟩

/-- `perform` answers next only with its effect and `cp` moved past the command. -/
theorem perform_next {i : Instr} {s t : State} {f : State → State} (h : perform i s f = .next t) :
    configOk s.cfg = true ∧ i.wellFormed s.cfg.nGlyph = true ∧ t = advance i.length (f s) :=
  guarded_next h

/-- The effect that each instruction's meaning performs; `TUN.WAIT` moves `cp` itself (R159). -/
def effectOf : Instr → State → State
  | .busStart a => start a
  | .busWrite b => write b
  | .busRead k => busReadEffect k
  | .busRestart a => restart a
  | .busStop => stop
  | .dspInit => initDisplay
  | .dspSetcursor col row => setCursorSeq col row
  | .dspClearline => clearLine
  | .dspClearscreen => clearScreen
  | .dspPrintchar c => printChar c
  | .dspPrintstr cs => printText cs
  | .dspPrintline cs => printLine cs
  | .dspPrintnum value digits decimal => printNumber value digits decimal
  | .tunInit => initTuner
  | .tunSetvol level => setVolSeq level
  | .tunSetchan chan => setChannel chan
  | .tunSeek => seekNext
  | .tunWait => waitTurn
  | .tunUpdate => update
  | .tunFreq => frequency

/-- What `exec` answers, for every instruction but `TUN.WAIT`. -/
theorem exec_perform (i : Instr) (s : State) (h : i ≠ .tunWait) : exec i s = perform i s (effectOf i) := by
  cases i <;> first | rfl | exact absurd rfl h

theorem exec_wait (s : State) : exec .tunWait s = guarded .tunWait s (waitTurn s) := rfl

/-- `exec` answers next only in a legal configuration and for legal operands. -/
theorem exec_legal {i : Instr} {s t : State} (h : exec i s = .next t) :
    configOk s.cfg = true ∧ i.wellFormed s.cfg.nGlyph = true := by
  obtain ⟨k, hk⟩ := exec_guarded i s
  rw [hk] at h
  exact ⟨(guarded_next h).1, (guarded_next h).2.1⟩

/-- All a step that answers next can be: nothing (the end of the stream), or one instruction. -/
theorem step_next {s t : State} (h : step s = .next t) : t = s ∨ ∃ i, exec i s = .next t := by
  unfold step at h
  split at h
  · cases h
  · cases h; exact Or.inl rfl
  · exact Or.inr ⟨_, h⟩

/-- A poll leaves in the read bank what it read. -/
theorem update_rreg (s : State) : (update s).rreg = bankOf (s.nextDrives 96) := by
  have hf : ∀ u : State, (retireFlags u).rreg = u.rreg := by intro u; rw [retireFlags_eq]
  have hq : ∀ u : State, (requestAndDecode u).rreg = u.rreg := by
    intro u; simp [requestAndDecode, rdsDecode, writeOne_eq, setBits, clearBits]
  unfold update
  simp only
  split <;> split <;> simp [hf, hq, readBank_eq]

/-! ### What a legal configuration gives (R134, R176) -/

theorem configOk_parts {c : Config} (h : configOk c = true) :
    displayOk c = true ∧ indicesOk c = true ∧ shiftsOk c = true ∧ masksOk c = true ∧
    fieldsDisjoint (writableFields c) = true ∧ fieldsDisjoint (readFields c) = true ∧ valuesOk c = true := by
  simp only [configOk, Bool.and_eq_true] at h
  obtain ⟨⟨⟨⟨⟨⟨h1, h2⟩, h3⟩, h4⟩, h5⟩, h6⟩, h7⟩ := h
  exact ⟨h1, h2, h3, h4, h5, h6, h7⟩

theorem configOk_indices {c : Config} (h : configOk c = true) :
    c.rReset < 6 ∧ c.rSeek < 6 ∧ c.rRdsreq < 6 ∧ c.rChan < 6 ∧ c.rVol < 6 ∧ c.rStatus < 6 ∧ c.rBlkb < 6 ∧ c.rBlkd < 6 := by
  have h2 := (configOk_parts h).2.1
  simp only [indicesOk, List.all_cons, List.all_nil, Bool.and_eq_true, decide_eq_true_eq] at h2
  omega

theorem configOk_shifts {c : Config} (h : configOk c = true) : c.chanShift ≤ 6 ∧ c.chanRdShift ≤ 6 ∧ c.volShift ≤ 12 := by
  have h3 := (configOk_parts h).2.2.1
  simp only [shiftsOk, Bool.and_eq_true, decide_eq_true_eq] at h3
  omega

/-- Two fields of a legal configuration that stand in one register share no bit (R20, R176). -/
theorem fieldsDisjoint_pairwise {l : List (Nat × Word)} (h : fieldsDisjoint l = true) :
    l.Pairwise (fun f g => f.1 = g.1 → f.2 &&& g.2 = 0) := by
  induction l with
  | nil => exact List.Pairwise.nil
  | cons f rest ih =>
    simp only [fieldsDisjoint, Bool.and_eq_true, List.all_eq_true, Bool.or_eq_true, bne_iff_ne, beq_iff_eq] at h
    refine List.Pairwise.cons (fun g hg heq => ?_) (ih h.2)
    rcases h.1 g hg with hne | h0
    · exact absurd heq hne
    · exact h0

end Sys2Proof.Machine
end

