-- ==== Sys2Proof/Tests/Slice0.lean ====
section
/-!
SUPPORT. Tests, each on fixed values and one step, with results taken from spec/95_test_vectors.md (named in the
comment) or by hand from its rules; and for each statement with hypotheses a witness that they can be met.
-/

namespace Sys2Proof.Tests

open Sys2Proof Sys2Proof.Machine

/-! ### Helpers -/

/-- The state after an instruction, if it answers one. -/
def after (i : Instr) (s : State) : Option State :=
  match exec i s with
  | .next t => some t
  | .fault _ => none
  | .refused _ => none

/-- The refusal an outcome is, if it is one. -/
def refusal : Host.Outcome State Fault Refusal → Option Refusal
  | .next _ => none
  | .fault _ => none
  | .refused r => some r

/-- The bits of six register words in the order they travel. -/
def bitsOf (ws : List Word) : List Bool := ws.flatMap (fun w => msbBits (hiByte w) ++ msbBits (loByte w))

/-- A configuration with a given font, byte `i` of which is `i` modulo 256. -/
def fontCfg : Config := { Config.default with font := .bytes ((List.range 480).map (BitVec.ofNat 8)) }

/-- A state at reset with that font and a cursor. -/
def atCursor (x y : Byte) : State := { State.resetWith fontCfg with curX := x, curY := y }

/-- The reset state with scripted answers. -/
def answering (ws : List Word) : State := { State.reset with answers := bitsOf ws }

/-- The reset state with a command stream. -/
def running (bytes : List Byte) : State := { State.reset with stream := bytes }

/-- What a slave reads from the events an instruction adds at reset-like latches. -/
def wireAfter (i : Instr) (s : State) : Option (List WireItem) := (after i s).map (fun t => wireItems (t.trace.drop s.trace.length))

/-- The address byte and payload bytes of one transaction, all unanswered. -/
def sent (bytes : List Byte) : List WireItem := [.start] ++ bytes.map (fun b => .byte b true) ++ [.stop]

/-! ### Well-formedness: an ill-formed term for each check of R67 -/

theorem test_illFormed_busRead : (Instr.busRead 2).wellFormed 96 = false := by decide
theorem test_illFormed_printchar_low : (Instr.dspPrintchar 0x1F).wellFormed 96 = false := by decide
theorem test_illFormed_printchar_high : (Instr.dspPrintchar 0x80).wellFormed 96 = false := by decide
theorem test_wellFormed_printchar_bigger_font : (Instr.dspPrintchar 0x80).wellFormed 97 = true := by decide
theorem test_illFormed_printstr : (Instr.dspPrintstr [0x41, 0x0A]).wellFormed 96 = false := by decide
theorem test_illFormed_printline : (Instr.dspPrintline [0x0A]).wellFormed 96 = false := by decide
theorem test_illFormed_printnum_value : (Instr.dspPrintnum 100 2 0).wellFormed 96 = false := by decide
theorem test_illFormed_printnum_digits : (Instr.dspPrintnum 0 6 0).wellFormed 96 = false := by decide
theorem test_illFormed_setvol : (Instr.tunSetvol 16).wellFormed 96 = false := by decide
theorem test_illFormed_setchan : (Instr.tunSetchan 1024).wellFormed 96 = false := by decide

/-! ### Decoding: the words of V16, every constructor -/

theorem test_decode_busStart : decode [0x10, 0x78] = .ok (.busStart 0x78) := by decide
theorem test_decode_busWrite : decode [0x11, 0xA5] = .ok (.busWrite 0xA5) := by decide
theorem test_decode_busRead : decode [0x12, 0x01] = .ok (.busRead 1) := by decide
theorem test_decode_busRestart : decode [0x13, 0x21] = .ok (.busRestart 0x21) := by decide
theorem test_decode_busStop : decode [0x14] = .ok .busStop := by decide
theorem test_decode_dspInit : decode [0x20] = .ok .dspInit := by decide
theorem test_decode_dspSetcursor : decode [0x21, 0x32, 0x02] = .ok (.dspSetcursor 50 2) := by decide
theorem test_decode_dspClearline : decode [0x22] = .ok .dspClearline := by decide
theorem test_decode_dspClearscreen : decode [0x23] = .ok .dspClearscreen := by decide
theorem test_decode_dspPrintchar : decode [0x24, 0x41] = .ok (.dspPrintchar 0x41) := by decide
theorem test_decode_dspPrintstr : decode [0x25, 0x46, 0x4D, 0x00] = .ok (.dspPrintstr [0x46, 0x4D]) := by decide
theorem test_decode_dspPrintstr_empty : decode [0x25, 0x00] = .ok (.dspPrintstr []) := by decide
theorem test_decode_dspPrintline : decode [0x26, 0x46, 0x4D, 0x00] = .ok (.dspPrintline [0x46, 0x4D]) := by decide
theorem test_decode_dspPrintnum : decode [0x27, 0x22, 0x29, 0x05, 0x02] = .ok (.dspPrintnum 8745 5 2) := by decide
theorem test_decode_tunInit : decode [0x30] = .ok .tunInit := by decide
theorem test_decode_tunSetvol : decode [0x31, 0x09] = .ok (.tunSetvol 9) := by decide
theorem test_decode_tunSetchan : decode [0x32, 0x00, 0x64] = .ok (.tunSetchan 100) := by decide
theorem test_decode_tunSetchan_max : decode [0x32, 0x03, 0xFF] = .ok (.tunSetchan 1023) := by decide
theorem test_decode_tunSeek : decode [0x33] = .ok .tunSeek := by decide
theorem test_decode_tunWait : decode [0x34] = .ok .tunWait := by decide
theorem test_decode_tunUpdate : decode [0x35] = .ok .tunUpdate := by decide
theorem test_decode_tunFreq : decode [0x36] = .ok .tunFreq := by decide

/-- The refusals of the second table of V16. -/
theorem test_decode_reserved : ([[0x00], [0x15, 0x00], [0x28], [0x37], [0xFF]] : List (List Byte)).all
    (fun bytes => decodeLegal 96 bytes == .error .reservedOpcode) = true := by decide

theorem test_decode_truncated : ([[0x12], [0x21, 0x05], [0x32, 0x00], [0x25, 0x41, 0x42], [0x27, 0xFF, 0xFF, 0x06]] :
    List (List Byte)).all (fun bytes => decodeLegal 96 bytes == .error .truncated) = true := by decide

theorem test_decode_reservedOperand : ([[0x12, 0x02], [0x24, 0x1F], [0x24, 0x80], [0x25, 0x41, 0x0A, 0x00],
    [0x27, 0x00, 0x64, 0x02, 0x00], [0x27, 0x00, 0x00, 0x06, 0x00], [0x31, 0x10], [0x32, 0x04, 0x00]] :
    List (List Byte)).all (fun bytes => decodeLegal 96 bytes == .error .reservedOperand) = true := by decide

/-- The table's numbering: byte 0 in bits 7..0, later bytes above (TUN.SETCHAN 100 is 32 00 64). -/
theorem test_tableWord_setchan : decodeTableWord 24 0x640032 = some (.tunSetchan 100) := by decide
theorem test_tableWord_padded : decodeTableWord 8 0x25 = some (.dspPrintstr []) := by decide
theorem test_tableWord_reserved : decodeTableWord 8 0x00 = none := by decide

/-- A placed word is what the first step after reset runs; one with a reserved operand is refused. -/
theorem test_fetchWord_reserved : (match step (State.reset.withFetchWord 24 0x021132) with
    | .next t => t.tstate == .tuning && t.cp == 3 | _ => false) = false := by decide +kernel
theorem test_fetchWord_setchan : (match step (State.reset.withFetchWord 24 0x640032) with
    | .next t => t.tstate == .tuning && t.cp == 3 | _ => false) = true := by decide +kernel

/-! ### BUS family -/

/-- V1, `BUS.WRITE 0xA5`, every event. -/
theorem test_busWrite_A5 : (after (.busWrite 0xA5) { State.reset with sclDrv := true }).map (fun t => (t.trace, t.sdaDrv, t.sclDrv)) =
    some ([.sdaRel, .sclRel, .sclLow, .sdaLow, .sclRel, .sclLow, .sdaRel, .sclRel, .sclLow, .sdaLow, .sclRel, .sclLow,
      .sdaLow, .sclRel, .sclLow, .sdaRel, .sclRel, .sclLow, .sdaLow, .sclRel, .sclLow, .sdaRel, .sclRel, .sclLow,
      .sdaRel, .sclRel, .sclLow], false, true) := by decide +kernel

/-- V2, `BUS.START 0x78`, as a slave reads it and in number of events. -/
theorem test_busStart_78 : (after (.busStart 0x78) State.reset).map (fun t => (t.trace.take 5, t.trace.length, wireItems t.trace)) =
    some ([.sdaLow, .sclLow, .sdaLow, .sclRel, .sclLow], 29, [.start, .byte 0x78 true]) := by decide +kernel

/-- V3. -/
theorem test_busStop : (after .busStop { State.reset with sclDrv := true }).map (fun t => (t.trace, t.sdaDrv, t.sclDrv)) =
    some ([.sdaLow, .sclRel, .sdaRel], false, false) := by decide +kernel

/-- V4, every event. -/
theorem test_busRead_ack : (after (.busRead 1) { State.reset with answers := [true, false, true, false, false, true, false, true] }).map
      (fun t => (t.trace, t.res, t.sdaDrv, t.sclDrv)) =
    some ([.sdaRel, .sclRel, .sample true, .sclLow, .sclRel, .sample false, .sclLow, .sclRel, .sample true, .sclLow,
      .sclRel, .sample false, .sclLow, .sclRel, .sample false, .sclLow, .sclRel, .sample true, .sclLow,
      .sclRel, .sample false, .sclLow, .sclRel, .sample true, .sclLow, .sdaLow, .sclRel, .sclLow],
      0x00A5, true, true) := by decide +kernel

/-- V5. -/
theorem test_busRead_nak : (after (.busRead 0) { State.reset with answers := [false, false, true, true, true, true, false, false] }).map
      (fun t => (t.trace.length, t.res, t.sdaDrv, t.sclDrv)) = some (27, 0x003C, false, true) := by decide +kernel

/-- V6, from the latches V4 leaves. -/
theorem test_busRestart_21 : (after (.busRestart 0x21) { State.reset with sdaDrv := true, sclDrv := true }).map
      (fun t => (t.trace.take 10, t.trace.length, t.sdaDrv, t.sclDrv)) =
    some ([.sdaRel, .sclRel, .sdaLow, .sclLow, .sdaLow, .sclRel, .sclLow, .sdaLow, .sclRel, .sclLow], 31, false, true) := by
  decide +kernel

/-- V6b: a stop on an idle bus is an empty transaction on the wire. -/
theorem test_busStop_idle_wire : wireAfter .busStop State.reset = some [.start, .stop] := by decide +kernel

/-! ### DSP family -/

/-- V7. -/
theorem test_dspInit : wireAfter .dspInit State.reset =
    some (sent [0x78, 0x00, 0xA8, 0x1F, 0xDA, 0x02, 0x8D, 0x14, 0xAF, 0xA1, 0xC8, 0x81, 0x7F]) := by decide +kernel

/-- V8, first and second case. -/
theorem test_dspSetcursor : wireAfter (.dspSetcursor 50 2) State.reset = some (sent [0x78, 0x00, 0x02, 0x13, 0xB2]) := by
  decide +kernel
theorem test_dspSetcursor_unmasked : (after (.dspSetcursor 0 9) State.reset).map (fun t => (t.curX, t.curY, wireItems t.trace)) =
    some (0, 9, sent [0x78, 0x00, 0x00, 0x10, 0xB1]) := by decide +kernel

/-- A given `CURSOR_CMDS` (R7, R112): the bytes of the last column and the first row, not of the first and the last. -/
theorem test_dspSetcursor_table :
    let none := Vector.replicate 256 ([] : List Byte)
    let given := (Vector.replicate 256 none).set 255 (none.set 0 [0x21, 0xFF])
    wireAfter (.dspSetcursor 0xFF 0) { State.reset with cfg := { State.reset.cfg with cursorCmds := .table given } } =
      some (sent [0x78, 0x00, 0x21, 0xFF]) := by
  decide +kernel

/-- V9b: 'A' at column 120 wraps; font bytes 165 to 169. -/
theorem test_dspPrintchar_wrap : (after (.dspPrintchar 0x41) (atCursor 120 0)).map (fun t => (t.curX, t.curY, wireItems t.trace)) =
    some (0, 1, sent [0x78, 0x40, 0x00, 165, 166, 167, 168, 169] ++ sent [0x78, 0x00, 0x00, 0x10, 0xB1] ++ sent [0x78, 0x40]) := by
  decide +kernel
/-- V9c: column 122 is not past 122. -/
theorem test_dspPrintchar_edge : (after (.dspPrintchar 0x41) (atCursor 116 0)).map (fun t => (t.curX, t.curY, t.trace.length)) =
    some (122, 0, 221) := by decide +kernel

/-- P2's string: 'F' fits, 'M' wraps. -/
theorem test_dspPrintstr_FM : (after (.dspPrintstr [0x46, 0x4D]) (atCursor 114 1)).map (fun t => (t.curX, t.curY, t.trace.length)) =
    some (0, 2, 582) := by decide +kernel
/-- V10c. -/
theorem test_dspPrintstr_empty : wireAfter (.dspPrintstr []) State.reset = some (sent [0x78, 0x40]) := by decide +kernel

/-- V11a and V11c. -/
theorem test_dspClearline : (after .dspClearline (atCursor 126 0)).map (fun t => (t.curX, t.curY, wireItems t.trace)) =
    some (0, 1, sent [0x78, 0x40, 0x00, 0x00] ++ sent [0x78, 0x00, 0x00, 0x10, 0xB1]) := by decide +kernel
theorem test_dspClearline_past_end : (after .dspClearline (atCursor 200 3)).map (fun t => (t.curX, t.curY, t.trace.length)) =
    some (0, 4, 199) := by decide +kernel

/-- V12. -/
theorem test_dspClearscreen : (after .dspClearscreen (atCursor 9 9)).map (fun t => (t.curX, t.curY, t.trace.length)) =
    some (0, 4, 14760) := by decide +kernel

/-- V14. -/
theorem test_dspPrintline_FM : (after (.dspPrintline [0x46, 0x4D]) (atCursor 0 0)).map (fun t => (t.curX, t.curY, t.trace.length)) =
    some (0, 1, 3714) := by decide +kernel

/-- V13's table of characters. -/
theorem test_number_texts :
    numberChars 2 5 8745 false = [0x20, 0x38, 0x37, 0x2E, 0x34, 0x35] ∧
    numberChars 0 2 5 false = [0x20, 0x35] ∧ numberChars 0 2 0 false = [0x20, 0x30] ∧
    numberChars 2 5 10800 false = [0x31, 0x30, 0x38, 0x2E, 0x30, 0x30] ∧
    numberChars 2 5 0 false = [0x20, 0x20, 0x30, 0x2E, 0x30, 0x30] ∧
    numberChars 2 3 5 false = [0x30, 0x2E, 0x30, 0x35] ∧ numberChars 1 3 42 false = [0x20, 0x34, 0x2E, 0x32] ∧
    numberChars 0 5 65535 false = [0x36, 0x35, 0x35, 0x33, 0x35] ∧ numberChars 5 2 0 false = [0x20, 0x20] ∧
    numberChars 0 0 0 false = [] := by decide +kernel

/-- V13's wire: six characters, cursor (36, 0), 1,031 events. -/
theorem test_dspPrintnum : (after (.dspPrintnum 8745 5 2) (atCursor 0 0)).map (fun t => (t.curX, t.curY, t.trace.length)) =
    some (36, 0, 1031) := by decide +kernel

/-! ### TUN family -/

/-- V20. -/
theorem test_tunInit : (after .tunInit State.reset).map (fun t => (t.wreg, t.tstate, wireItems t.trace)) =
    some (#v[0xD20D, 0x15C0, 0x0A00, 0x8885, 0x0000, 0x0000], .idle,
      sent [0x20, 0xD2, 0x0F, 0x15, 0xC0, 0x0A, 0x00, 0x88, 0x80, 0x00, 0x00, 0x00, 0x00] ++
      sent [0x20, 0xD2, 0x0D, 0x15, 0xC0, 0x0A, 0x00, 0x88, 0x80, 0x00, 0x00, 0x00, 0x00] ++ sent [0x22, 0x05, 0x88, 0x85]) := by
  decide +kernel

/-- V21. -/
theorem test_tunSetvol : (after (.tunSetvol 9) State.reset).map (fun t => (wregAt t 3, t.tstate, wireItems t.trace)) =
    some (0x8889, .uninit, sent [0x22, 0x05, 0x88, 0x89]) := by decide +kernel

/-- V22. -/
theorem test_tunSetchan : (after (.tunSetchan 100) { State.reset with name := (Vector.replicate 8 0x41).push 0 }).map
      (fun t => (wregAt t 1, t.name, t.tstate, wireItems t.trace)) =
    some (0x1910, (Vector.replicate 8 0x20).push 0, .tuning, sent [0x22, 0x03, 0x19, 0x10]) := by decide +kernel
theorem test_tunSetchan_ends : (after (.tunSetchan 1023) State.reset).map (wregAt · 1) = some 0xFFD0 ∧
    (after (.tunSetchan 0) State.reset).map (wregAt · 1) = some 0x0010 := by decide +kernel

/-- V23. -/
theorem test_tunSeek : (after .tunSeek State.reset).map (fun t => (wregAt t 0, t.tstate, wireItems t.trace)) =
    some (0xD30D, .seeking, sent [0x22, 0x02, 0xD3, 0x0D]) := by decide +kernel

/-- V24a: completion clears the flag in the cache only. -/
theorem test_tunUpdate_done : (after .tunUpdate { answering [0x4064, 0x7E80, 0, 0, 0, 0] with
      wreg := #v[0xD20D, 0x1910, 0x0A00, 0x8880, 0, 0], tstate := .tuning }).map
      (fun t => (t.rreg, t.wreg, t.tstate, t.trace.length)) =
    some (#v[0x4064, 0x7E80, 0, 0, 0, 0], #v[0xD20D, 0x1900, 0x0A00, 0x8880, 0, 0], .idle, 367) := by decide +kernel

/-- V25, first poll: stored, not promoted. -/
theorem test_tunUpdate_candidate : (after .tunUpdate (answering [0xC064, 0x7E80, 0x1234, 0x0401, 0xE0CD, 0x4443])).map
      (fun t => (t.cand, t.name, t.wreg, t.trace.length)) =
    some (#v[0, 0, 0x44, 0x43, 0, 0, 0, 0, 0], (Vector.replicate 8 0x20).push 0,
      #v[0xD20D, 0x15C0, 0x0A00, 0x8880, 0, 0], 593) := by decide +kernel

/-- P3, first turn of the wait (the command has not ended); V29's answers, the wait ends. -/
theorem test_tunWait_again : (after .tunWait (answering [0x0057, 0, 0, 0, 0, 0])).map (fun t => (t.cp, t.trace.length)) =
    some (0, 367) := by decide +kernel
theorem test_tunWait_ends : (after .tunWait { State.reset with answers := List.replicate 96 true }).map
      (fun t => (t.cp, t.rreg, t.cand == State.reset.cand, t.trace.length)) =
    some (1, Vector.replicate 6 0xFFFF, true, 593) := by decide +kernel

/-- V30. -/
theorem test_tunFreq : (after .tunFreq { State.reset with rreg := #v[0x4064, 0, 0, 0, 0, 0] }).map (fun t => (t.res, t.trace)) =
    some (9700, []) ∧
    [(0#16, 8700#16), (100, 9700), (87, 9570), (300, 11700), (1023, 18930)].all (fun p => freq p.1 == p.2) = true := by
  decide +kernel

/-! ### Configuration checks (R134, R176): a bad record for each -/

theorem test_config_default_ok : configOk Config.default = true ∧ configOk fontCfg = true := by decide +kernel
theorem test_config_bad : ([{ Config.default with dispCols := 127 }, { Config.default with nGlyph := 25 },
    { Config.default with font := .bytes [] }, { Config.default with rVol := 6 }, { Config.default with chanShift := 7 },
    { Config.default with mSeek := 0x0300 }, { Config.default with mRdsreq := 0x0002 },
    { Config.default with rBlkd := 3 }, { Config.default with addrDisp := 0x80 }, { Config.default with startVolume := 16 }] :
    List Config).all (fun c => !configOk c) = true := by decide +kernel

/-! ### Witnesses: the hypotheses of each statement are met by concrete states and operands

`answersNext i s` says that the hypothesis "`exec i s` answers next" holds. The shared hypothesis `configOk s.cfg` is
met by State.reset (`test_config_default_ok`). -/

/-- `exec i s` answers a next state. -/
def answersNext (i : Instr) (s : State) : Bool := (after i s).isSome

/-- `step s` answers a next state. -/
def stepsNext (s : State) : Bool := match step s with | .next _ => true | .fault _ => false | .refused _ => false

/-- One legal instruction of each constructor, operands at the ends of their ranges. -/
def legalSamples : List Instr :=
  [.busStart 0, .busStart 0xFF, .busWrite 0, .busWrite 0xFF, .busRead 0, .busRead 1, .busRestart 0, .busStop] ++
  [.dspInit, .dspSetcursor 0 0, .dspSetcursor 0xFF 0xFF, .dspClearline, .dspClearscreen, .dspPrintchar 32, .dspPrintchar 127,
   .dspPrintstr [], .dspPrintstr [32, 127], .dspPrintline [], .dspPrintline [127], .dspPrintnum 0 0 0, .dspPrintnum 65535 5 255,
   .dspPrintnum 99 2 1] ++
  [.tunInit, .tunSetvol 0, .tunSetvol 15, .tunSetchan 0, .tunSetchan 1023, .tunSeek, .tunWait, .tunUpdate, .tunFreq]

/-- Three polls with the same group, flags `STC` and `RDSR` set, offset 1, 'D' and 'C' (V25). -/
def sameGroups : State := answering
  [0xC064, 0, 0, 0x0401, 0, 0x4443, 0xC064, 0, 0, 0x0401, 0, 0x4443]

/-- Two polls at offset 0 that differ in both characters from the candidates and from each other. -/
def differentGroups : State := answering [0x8064, 0, 0, 0x0400, 0, 0x4142, 0x8064, 0, 0, 0x0400, 0, 0x4344]

/-- A wait about to run: two polls without `STC`, then one with it (P3). -/
def waiting : State := { answering ([0x0057, 0, 0, 0, 0, 0, 0x0057, 0, 0, 0, 0, 0] ++ [0x4057, 0, 0, 0, 0, 0]) with stream := [0x34] }

theorem witness_DecodeOfEncode : legalSamples.all (Instr.wellFormed 96) = true := by decide +kernel

theorem witness_EncodeOfDecode : decode [0x25, 0x46, 0x00, 0x14] = .ok (.dspPrintstr [0x46]) ∧
    decode [0x27, 0xFF, 0xFF, 0x05, 0x04, 0x14] = .ok (.dspPrintnum 65535 5 4) := by decide

theorem witness_CutOffCommandsAreTruncated : (Instr.dspPrintstr []).wellFormed 96 = true ∧ 1 < (Instr.dspPrintstr []).length ∧
    (Instr.dspPrintnum 0 0 0).wellFormed 96 = true ∧ 4 < (Instr.dspPrintnum 0 0 0).length := by decide

theorem witness_ReservedOpcodesAreThoseListed : ([0x00, 0x0F, 0x15, 0x1F, 0x28, 0x2F, 0x37, 0xFF] : List Byte).all
      (fun op => decode [op] == .error .reservedOpcode) = true ∧
    ([0x10, 0x14, 0x20, 0x27, 0x30, 0x36] : List Byte).all (fun op => !(decode [op] == .error .reservedOpcode)) = true := by decide

theorem witness_StepRunsDecodedCommand : configOk (running [0x14]).cfg = true ∧ (running [0x14]).cp < (running [0x14]).stream.length ∧
    decode (running [0x14]).fetch = .ok .busStop ∧ Instr.busStop.wellFormed (running [0x14]).cfg.nGlyph = true := by decide +kernel

/-- One state for each clause: bad configuration over a bad stream, then the three reasons in a good one. -/
theorem witness_StepRefusesInOrder :
    refusal (step { running [0x00] with cfg := { Config.default with rVol := 6 } }) = some .badConfiguration ∧
    refusal (step (running [0x37])) = some .reservedOpcode ∧ refusal (step (running [0x27, 0xFF, 0xFF, 0x06])) = some .truncated ∧
    refusal (step (running [0x31, 0x10])) = some .reservedOperand := by decide +kernel

theorem witness_NothingElseIsRefused : stepsNext (running [0x31, 0x0F]) = true ∧ stepsNext (running []) = true := by decide +kernel

theorem witness_ExecRunsLegalRefusesReserved : legalSamples.all (fun i => answersNext i State.reset) = true ∧
    ([.busRead 2, .dspPrintchar 31, .dspPrintchar 128, .dspPrintstr [10], .dspPrintline [128], .dspPrintnum 100 2 0,
      .dspPrintnum 0 6 0, .tunSetvol 16, .tunSetchan 1024] : List Instr).all
      (fun i => refusal (exec i State.reset) == some .reservedOperand) = true ∧
    refusal (exec (.busRead 2) { State.reset with cfg := { Config.default with rVol := 6 } }) = some .badConfiguration := by
  decide +kernel

theorem witness_StepIdlesAtEndOfStream : configOk State.reset.cfg = true ∧ State.reset.stream.length ≤ State.reset.cp := by
  decide +kernel

theorem witness_BusReadReceivesByte : configOk State.reset.cfg = true ∧ (0 : Byte).toNat ≤ 1 ∧ (1 : Byte).toNat ≤ 1 := by decide +kernel

theorem witness_WriteShowsBitsAtClockHigh : configOk { State.reset with sclDrv := true }.cfg = true ∧
    { State.reset with sclDrv := true }.sclDrv = true := by decide +kernel

theorem witness_BusOperationsEndAfterFixedEvents :
    ([.busStart 0x78, .busWrite 0, .busRead 0, .busRead 1, .busRestart 0x21, .busStop] : List Instr).all
      (fun i => isBus i && i.wellFormed State.reset.cfg.nGlyph) = true := by decide +kernel

theorem witness_SilentBusReadsOnes : ({ State.reset with answers := List.replicate 96 true }).nextDrives 8 = List.replicate 8 true ∧
    ({ State.reset with answers := List.replicate 96 true }).nextDrives 96 = List.replicate 96 true := by decide +kernel

/-- Both branches of the wrap, at columns 116 and 117, with the first and the last character. -/
theorem witness_DspPrintcharPlotsGlyph : 32 ≤ (32 : Byte).toNat ∧ (127 : Byte).toNat < 32 + State.reset.cfg.nGlyph ∧
    ¬ 122 < ((116 : Byte).toNat + 6) % 256 ∧ 122 < ((117 : Byte).toNat + 6) % 256 ∧ ¬ 122 < ((250 : Byte).toNat + 6) % 256 := by
  decide +kernel

/-- The text hypothesis of the three string statements: the empty text, and the first and last character. -/
theorem witness_DspPrintstrSendsPages : ([[], [32, 127]] : List (List Byte)).all
    (fun cs => cs.all (fun c => decide (32 ≤ c.toNat ∧ c.toNat < 32 + State.reset.cfg.nGlyph))) = true := by decide +kernel

theorem witness_StringOf21FillsPage : State.reset.curX = 0 ∧ (List.replicate 21 (0x41 : Byte)).all
    (fun c => decide (32 ≤ c.toNat ∧ c.toNat < 32 + State.reset.cfg.nGlyph)) = true := by decide +kernel

theorem witness_DspPrintlineClearsAfterText : ([0x46, 0x4D] : List Byte).all
    (fun c => decide (32 ≤ c.toNat ∧ c.toNat < 32 + State.reset.cfg.nGlyph)) = true := by decide +kernel

theorem witness_DspPrintnumSendsDecimalText : (5 : Byte).toNat ≤ 5 ∧ (65535 : Word).toNat < 10 ^ (5 : Byte).toNat ∧
    (0 : Byte).toNat ≤ 5 ∧ (0 : Word).toNat < 10 ^ (0 : Byte).toNat := by decide

theorem witness_RepeatedSubtractionDivides : (65535 : Word).toNat < 10 ^ (4 + 1) ∧ (9 : Word).toNat < 10 ^ (0 + 1) := by decide

theorem witness_DisplaySendsClosedTransactionsOnly : configOk State.reset.cfg = true ∧
    (legalSamples.filter isDsp).all (Instr.wellFormed State.reset.cfg.nGlyph) = true ∧ (legalSamples.filter isDsp).length = 14 := by
  decide +kernel

theorem witness_TunSetvolWritesVolume : (0 : Byte).toNat ≤ 15 ∧ (15 : Byte).toNat ≤ 15 := by decide

theorem witness_TunSetchanWritesChannel : (0 : Word).toNat ≤ 1023 ∧ (1023 : Word).toNat ≤ 1023 := by decide

theorem witness_MergesKeepOtherBits : configOk State.reset.cfg = true ∧ (15 : Byte).toNat ≤ 15 ∧ (1023 : Word).toNat ≤ 1023 := by
  decide +kernel

theorem witness_UpdateDebouncesTwoSlots : configOk sameGroups.cfg = true ∧
    rdsrSet sameGroups.cfg (bankOf (sameGroups.nextDrives 96)) = true := by decide +kernel

theorem witness_SameGroupTwicePromotesBoth : rdsrSet sameGroups.cfg (bankOfPoll sameGroups 0) = true ∧
    rdsrSet sameGroups.cfg (bankOfPoll sameGroups 1) = true ∧
    bankGet (bankOfPoll sameGroups 0) 3 = bankGet (bankOfPoll sameGroups 1) 3 ∧
    bankGet (bankOfPoll sameGroups 0) 5 = bankGet (bankOfPoll sameGroups 1) 5 ∧
    psGroup sameGroups.cfg (bankGet (bankOfPoll sameGroups 0) 3) = true ∧
    sameGroups.cfg.rBlkb = 3 ∧ sameGroups.cfg.rBlkd = 5 ∧ configOk sameGroups.cfg = true := by decide +kernel

theorem witness_DifferentGroupsPromoteNeither :
    let s := differentGroups
    let b1 := bankOfPoll s 0
    let b2 := bankOfPoll s 1
    configOk s.cfg = true ∧ rdsrSet s.cfg b1 = true ∧ rdsrSet s.cfg b2 = true ∧
    (bankGet b2 s.cfg.rBlkb).toNat % 4 = (bankGet b1 s.cfg.rBlkb).toNat % 4 ∧
    hiByte (bankGet b1 s.cfg.rBlkd) ≠ slotGet s.cand (2 * ((bankGet b1 s.cfg.rBlkb).toNat % 4)) ∧
    loByte (bankGet b1 s.cfg.rBlkd) ≠ slotGet s.cand (2 * ((bankGet b1 s.cfg.rBlkb).toNat % 4) + 1) ∧
    psGroup s.cfg (bankGet b1 s.cfg.rBlkb) = true ∧
    hiByte (bankGet b2 s.cfg.rBlkd) ≠ hiByte (bankGet b1 s.cfg.rBlkd) ∧
    loByte (bankGet b2 s.cfg.rBlkd) ≠ loByte (bankGet b1 s.cfg.rBlkd) := by decide +kernel

theorem waiting_atWait : AtWait waiting := ⟨by decide +kernel, by decide +kernel, by decide +kernel⟩

/-- The first two polls show no completion, the third does (n = 2); n = 0 is a wait that ends at once. -/
theorem witness_TunWaitEndsAtFirstCompletion : AtWait waiting ∧ (∀ m, m < 2 → stcSet waiting.cfg (bankOfPoll waiting m) = false) ∧
    stcSet waiting.cfg (bankOfPoll waiting 2) = true := ⟨waiting_atWait, by decide +kernel, by decide +kernel⟩

theorem witness_TunWaitHangsWithoutCompletion : AtWait waiting ∧
    (∀ m, m < 2 → stcSet waiting.cfg (bankOfPoll waiting m) = false) := ⟨waiting_atWait, by decide +kernel⟩

/-- The hypothesis "`exec i s` answers next" of the statements over all instructions, one instruction of each constructor. -/
theorem witness_CandidatesOutliveRetuning : legalSamples.all (fun i => answersNext i State.reset) = true := by decide +kernel
theorem witness_ReadBankWrittenByPollsOnly : answersNext .tunUpdate sameGroups = true ∧ answersNext .tunWait sameGroups = true ∧
    answersNext .tunSeek sameGroups = true := by decide +kernel
theorem witness_ResultWrittenByTwoOperations : answersNext .tunUpdate sameGroups = true ∧ (∀ k, Instr.tunUpdate ≠ .busRead k) ∧
    Instr.tunUpdate ≠ .tunFreq := ⟨by decide +kernel, (fun _ => nofun), nofun⟩
theorem witness_CursorAndTunerRegistersKeptByOtherFamilies : answersNext .busStop State.reset = true ∧ answersNext .dspInit State.reset = true ∧
    isDsp .busStop = false ∧ isBus .busStop = true ∧ isDsp .dspInit = true := by decide +kernel

/-- The hypothesis "`step s` answers next" of the statements about a step: a command, a turn of a wait, the end of the stream. -/
theorem witness_StepKeepsProgramAndConfig : stepsNext (running [0x33]) = true ∧ stepsNext waiting = true ∧
    stepsNext State.reset = true := by decide +kernel
theorem witness_TraceGrowsByWhatHappened : stepsNext (running [0x12, 0x01]) = true ∧ stepsNext waiting = true := by decide +kernel

theorem witness_StepKeepsLatchesFollowTrace : LatchesFollowTrace (running [0x10, 0x78]) ∧ stepsNext (running [0x10, 0x78]) = true :=
  ⟨rfl, by decide +kernel⟩
theorem witness_StepKeepsUnnamedBits : TerminatorsZero (running [0x30]) ∧ UnnamedBitsPreset (running [0x30]) ∧
    stepsNext (running [0x30]) = true := ⟨⟨by decide, by decide⟩, fun _ _ => rfl, by decide +kernel⟩

/-- A step begun while seeking with the flag set, and one while tuning with the flag set. -/
theorem witness_StepKeepsStateMirrorsFlags :
    StateMirrorsFlags { running [0x31, 0x03] with tstate := .seeking, wreg := #v[0xD30D, 0, 0, 0, 0, 0] } ∧
    StateMirrorsFlags { running [0x31, 0x03] with tstate := .tuning, wreg := #v[0, 0x0150, 0, 0, 0, 0] } ∧
    stepsNext { running [0x31, 0x03] with tstate := .seeking, wreg := #v[0xD30D, 0, 0, 0, 0, 0] } = true ∧
    stepsNext { running [0x31, 0x03] with tstate := .tuning, wreg := #v[0, 0x0150, 0, 0, 0, 0] } = true :=
  ⟨⟨(fun _ => by decide), nofun⟩, ⟨nofun, (fun _ => by decide)⟩, by decide +kernel, by decide +kernel⟩

theorem witness_DisplayAndTunerLeaveBusIdle : BusIdle State.reset ∧
    legalSamples.all (fun i => isBus i || answersNext i State.reset) = true := ⟨⟨rfl, rfl⟩, by decide +kernel⟩

/-- Each line of R161's table: the instruction runs, and for the last two the poll shows `STC` or does not. -/
theorem witness_TunerStateTransitions : answersNext .tunInit State.reset = true ∧ answersNext (.tunSetchan 5) State.reset = true ∧
    answersNext .tunSeek State.reset = true ∧
    (after .tunUpdate { sameGroups with tstate := .seeking }).map (fun t => (stcSet t.cfg t.rreg, t.tstate)) = some (true, .idle) ∧
    (after .tunUpdate { differentGroups with tstate := .tuning }).map (fun t => (stcSet t.cfg t.rreg, t.tstate)) = some (false, .tuning) := by
  decide +kernel

/-- Two different sets of answers that show the same two flags. -/
theorem witness_CacheNeverCopiesDevice :
    (after .tunUpdate (answering [0xC064, 1, 2, 3, 4, 5])).map (fun t => (stcSet t.cfg t.rreg, rdsrSet t.cfg t.rreg)) = some (true, true) ∧
    (after .tunUpdate (answering [0xC3FF, 9, 8, 7, 6, 5])).map (fun t => (stcSet t.cfg t.rreg, rdsrSet t.cfg t.rreg)) = some (true, true) := by
  decide +kernel

theorem witness_SlaveReadsTunerWrite : BusIdle State.reset ∧ answersNext (.tunSetvol 15) State.reset = true ∧
    answersNext (.tunSetchan 1023) State.reset = true ∧ answersNext .tunSeek State.reset = true := ⟨⟨rfl, rfl⟩, by decide +kernel⟩

/-- Each clause: the reset pulse, no event, a poll with and without radio-data, one register. -/
theorem witness_TunerEventCounts : answersNext .tunInit State.reset = true ∧ answersNext .tunFreq State.reset = true ∧
    (after .tunUpdate sameGroups).map (fun t => rdsrSet t.cfg t.rreg) = some true ∧
    (after .tunWait (answering [0x4064, 0, 0, 0, 0, 0])).map (fun t => rdsrSet t.cfg t.rreg) = some false ∧
    answersNext .tunSeek State.reset = true := by decide +kernel

/-- The one hypothesis of BusWriteSendsByte, BusStartSendsAddress, BusRestartReleasesThenStarts, BusStopReleasesBus,
DspInitSendsInitBytes, DspSetcursorMovesShadow, DspClearlineBlanksRest, DspClearscreenBlanksFourPages, TunInitPulsesReset,
TunSeekSetsFlag, TunUpdatePollsAndRetires, TunWaitIsUpdateUntilDone, TunFreqComputesFrequency. -/
theorem witness_configOk_reset : configOk State.reset.cfg = true := by decide +kernel

end Sys2Proof.Tests
end

/-!
Proofs for the BUS family (spec/40_bus.md R96 to R103). Each command emits one frame of Frames.lean, whatever state it
starts in; the statements then follow from facts about the frames: where they leave the latches, how long they are,
what they show at clock-high and what they sample.
-/

namespace Sys2Proof.Machine

/-! ### A command whose effect is a list of line events -/

/-- A legal command whose effect appends `evs` to the trace ends, with `evs` appended. -/
theorem exec_appends {i : Instr} {s : State} {evs : List Event} (hi : i ≠ .tunWait) (hc : configOk s.cfg = true)
    (hw : i.wellFormed s.cfg.nGlyph = true) (he : (effectOf i s).trace = s.trace ++ evs) :
    ∃ t, exec i s = .next t ∧ t.trace = s.trace ++ evs :=
  ⟨advance i.length (effectOf i s), by rw [exec_perform i s hi, perform_ok hc hw], he⟩

/-- The next state of a legal command that only emits `evs`: `cp` moves past it, the latches are where `evs` leave them. -/
theorem exec_emits {i : Instr} {s : State} {evs : List Event} {sda scl : Bool} (hi : i ≠ .tunWait)
    (hc : configOk s.cfg = true) (hw : i.wellFormed s.cfg.nGlyph = true) (he : effectOf i s = emit evs s)
    (hl : replay (s.sdaDrv, s.sclDrv) evs = (sda, scl)) :
    exec i s = .next { s with
      cp := s.cp + i.length, sdaDrv := sda, sclDrv := scl, traceRev := evs.reverse ++ s.traceRev } := by
  rw [exec_perform i s hi, perform_ok hc hw, he]
  simp only [emit, hl, advance]

/-! ### The trace after each effect -/

theorem trace_write (b : Byte) (s : State) : (write b s).trace = s.trace ++ evWrite b := by
  rw [write_eq, trace_emit]

theorem trace_start (a : Byte) (s : State) : (start a s).trace = s.trace ++ (evStart ++ evWrite a) := by
  rw [start_eq, trace_emit]

theorem trace_restart (a : Byte) (s : State) : (restart a s).trace = s.trace ++ (evRestart ++ evWrite a) := by
  rw [restart_eq, trace_emit]

theorem trace_stop (s : State) : (stop s).trace = s.trace ++ evStop := by
  rw [stop_eq, trace_emit]

theorem trace_busReadEffect (k : Byte) (s : State) :
    (busReadEffect k s).trace = s.trace ++ evRead (s.nextDrives 8) (k == 1) := by
  rw [busReadEffect_eq]
  exact trace_emit _ (consume 8 s)

/-! ### What a written byte shows at clock-high (R103) -/

theorem sdaAtClockHigh_append (l : Bool × Bool) (xs ys : List Event) :
    sdaAtClockHigh l (xs ++ ys) = sdaAtClockHigh l xs ++ sdaAtClockHigh (replay l xs) ys := by
  induction xs generalizing l with
  | nil => rfl
  | cons e rest ih => simp [sdaAtClockHigh, ih, replay]

/-- The data line is set before the clock rises, so the latch before the bit-time does not matter. -/
theorem sdaAtClockHigh_evBit (l : Bool × Bool) (v : Bool) : sdaAtClockHigh l (evBit v) = [!v] := by
  cases v <;> rfl

theorem sdaAtClockHigh_evBits (l : Bool × Bool) (bits : List Bool) :
    sdaAtClockHigh l (bits.flatMap evBit) = bits.map (!·) := by
  induction bits generalizing l with
  | nil => rfl
  | cons v rest ih => simp [sdaAtClockHigh_append, sdaAtClockHigh_evBit, ih]

theorem sdaAtClockHigh_evWrite (l : Bool × Bool) (b : Byte) :
    sdaAtClockHigh l (evWrite b) = (msbBits b).map (!·) ++ [false] := by
  rw [evWrite, sdaAtClockHigh_append, sdaAtClockHigh_evBits, sdaAtClockHigh_evBit, Bool.not_true]

/-! ### The conditions around a byte sample nothing -/

theorem sampledBits_evStart_evWrite (a : Byte) : sampledBits (evStart ++ evWrite a) = [] := by
  rw [sampledBits_append, sampledBits_evWrite]; rfl

theorem sampledBits_evRestart_evWrite (a : Byte) : sampledBits (evRestart ++ evWrite a) = [] := by
  rw [sampledBits_append, sampledBits_evWrite]; rfl

/-! ### The obligations -/

/-- Settles O12: the effect emits the frame of the byte, which leaves the data latch released and the clock low. -/
theorem busWriteSendsByte : Obligations.BusWriteSendsByte := fun s b hc =>
  exec_emits (i := .busWrite b) nofun hc rfl (write_eq b s) (replay_evWrite _ b)

/-- Settles O13: as O12, with the start condition before the byte. -/
theorem busStartSendsAddress : Obligations.BusStartSendsAddress := fun s a hc =>
  exec_emits (i := .busStart a) nofun hc rfl (start_eq a s) (by rw [replay_append, replay_evWrite])

/-- Settles O15: the effect is the stop condition, which releases both latches. -/
theorem busStopReleasesBus : Obligations.BusStopReleasesBus := fun s hc =>
  exec_emits (i := .busStop) nofun hc rfl (stop_eq s) (replay_evStop _)

/-- Settles O17: the events are the frame of the byte, each of whose bit-times sets the data line before its one
clock-high. -/
theorem writeShowsBitsAtClockHigh : Obligations.WriteShowsBitsAtClockHigh := by
  intro s b hc _
  obtain ⟨t, hexec, htrace⟩ := exec_appends (i := .busWrite b) nofun hc rfl (trace_write b s)
  exact ⟨t, evWrite b, hexec, htrace, evWrite_length b, sdaAtClockHigh_evWrite _ b⟩

/-- Settles O18, operation by operation: each appends its frame, whose length and samples are known. -/
theorem busOperationsEndAfterFixedEvents : Obligations.BusOperationsEndAfterFixedEvents := by
  intro i s hbus hc hw
  have hi : i ≠ .tunWait := by rintro rfl; cases hbus
  cases i with
  | busWrite b =>
    obtain ⟨t, hexec, htrace⟩ := exec_appends hi hc hw (trace_write b s)
    exact ⟨t, _, hexec, htrace, evWrite_length b, sampledBits_evWrite b⟩
  | busRead k =>
    obtain ⟨t, hexec, htrace⟩ := exec_appends hi hc hw (trace_busReadEffect k s)
    have hbits : (s.nextDrives 8).length = 8 := nextDrives_length 8 s
    refine ⟨t, _, hexec, htrace, ?_, s.nextDrives 8, hbits, ?_⟩
    · simp only [evRead_length, hbits, beq_iff_eq]
      split <;> rfl
    · simp only [evRead, beq_iff_eq]
      rfl
  | busStart a =>
    obtain ⟨t, hexec, htrace⟩ := exec_appends hi hc hw (trace_start a s)
    exact ⟨t, _, hexec, htrace, by rw [List.length_append, evWrite_length]; rfl, sampledBits_evStart_evWrite a⟩
  | busRestart a =>
    obtain ⟨t, hexec, htrace⟩ := exec_appends hi hc hw (trace_restart a s)
    exact ⟨t, _, hexec, htrace, by rw [List.length_append, evWrite_length]; rfl, sampledBits_evRestart_evWrite a⟩
  | busStop =>
    obtain ⟨t, hexec, htrace⟩ := exec_appends hi hc hw (trace_stop s)
    exact ⟨t, _, hexec, htrace, rfl, rfl⟩
  | _ => cases hbus

end Sys2Proof.Machine

/-!
Proofs for the DSP family (spec/41_display.md R110). Every display operation emits events that its operands, the
cursor and the configuration fix; these are whole transactions, and the last stop leaves the bus idle.
-/

namespace Sys2Proof.Machine

/-! ### Event lists made of whole transactions -/

/-- The events are those of closed transactions, one after the other (R70). -/
def WholeTransactions (evs : List Event) : Prop :=
  ∃ transactions : List (Byte × List Byte), evs = transactions.flatMap (fun x => evTransaction x.1 x.2)

theorem wholeTransactions_nil : WholeTransactions [] := ⟨[], rfl⟩

theorem wholeTransactions_evTransaction (a : Byte) (bs : List Byte) : WholeTransactions (evTransaction a bs) :=
  ⟨[(a, bs)], by simp⟩

theorem WholeTransactions.append {xs ys : List Event} (hx : WholeTransactions xs) (hy : WholeTransactions ys) :
    WholeTransactions (xs ++ ys) := by
  obtain ⟨ts, rfl⟩ := hx
  obtain ⟨us, rfl⟩ := hy
  exact ⟨ts ++ us, List.flatMap_append.symm⟩

theorem wholeTransactions_evCursor (c : Config) (x y : Byte) : WholeTransactions (evCursor c x y) :=
  wholeTransactions_evTransaction ..

theorem wholeTransactions_evDisplayData (c : Config) (bs : List Byte) : WholeTransactions (evDisplayData c bs) :=
  wholeTransactions_evTransaction ..

theorem wholeTransactions_evPages (c : Config) (y : Byte) (gs : List (List Byte)) :
    WholeTransactions (evPages c y gs) := by
  induction gs generalizing y with
  | nil => exact wholeTransactions_nil
  | cons g gs ih =>
    exact ((wholeTransactions_evCursor c 0 (y + 1)).append (wholeTransactions_evDisplayData c _)).append (ih (y + 1))

theorem wholeTransactions_evText (c : Config) (x y : Byte) (cs : List Byte) : WholeTransactions (evText c x y cs) :=
  (wholeTransactions_evDisplayData c _).append (wholeTransactions_evPages c y _)

theorem wholeTransactions_evClearLine (c : Config) (x y : Byte) : WholeTransactions (evClearLine c x y) :=
  (wholeTransactions_evDisplayData c _).append (wholeTransactions_evCursor c 0 (y + 1))

/-! ### What a display operation emits -/

/-- The events of CLEARSCREEN: the cursor home, then four pages from there on (R119). -/
def evClearScreen (c : Config) : List Event :=
  evCursor c 0 0 ++ evClearLine c 0 0 ++ evClearLine c 0 1 ++ evClearLine c 0 2 ++ evClearLine c 0 3

theorem clearScreen_eq (s : State) : clearScreen s = setCursor 0 4 (emit (evClearScreen s.cfg) s) := by
  simp only [clearScreen, clearLine_eq, setCursorSeq_eq, setCursor_cfg, setCursor_curX, setCursor_curY, emit_cfg,
    emit_curX, emit_curY, setCursor_emit, setCursor_setCursor, emit_emit]
  rfl

theorem printLine_eq (cs : List Byte) (s : State) :
    printLine cs s = setCursor 0 ((cursorAfter cs.length (s.curX, s.curY)).2 + 1)
      (emit (evText s.cfg s.curX s.curY cs ++
        evClearLine s.cfg (cursorAfter cs.length (s.curX, s.curY)).1 (cursorAfter cs.length (s.curX, s.curY)).2) s) := by
  simp only [printLine, printText_eq, clearLine_eq, setCursor_cfg, setCursor_curX, setCursor_curY, emit_cfg,
    emit_curX, emit_curY, setCursor_emit, setCursor_setCursor, emit_emit]

/-- The events of a display operation in configuration `c` from cursor `(x, y)`; none for the other families. -/
def evDisplay (c : Config) (x y : Byte) : Instr → List Event
  | .dspInit => evDisplayCmd c c.initSeq
  | .dspSetcursor col row => evCursor c col row
  | .dspClearline => evClearLine c x y
  | .dspClearscreen => evClearScreen c
  | .dspPrintchar ch => evText c x y [ch]
  | .dspPrintstr cs => evText c x y cs
  | .dspPrintline cs =>
    evText c x y cs ++ evClearLine c (cursorAfter cs.length (x, y)).1 (cursorAfter cs.length (x, y)).2
  | .dspPrintnum value digits decimal => evText c x y (numberChars decimal digits.toNat value false)
  | _ => []

/-- All a display operation can do: emit its events and move the cursor. -/
theorem effectOf_display {i : Instr} (h : isDsp i = true) (s : State) :
    ∃ x y, effectOf i s = setCursor x y (emit (evDisplay s.cfg s.curX s.curY i) s) := by
  cases i with
  | dspInit => exact ⟨s.curX, s.curY, displayCmd_eq s.cfg.initSeq s⟩
  | dspSetcursor col row => exact ⟨col, row, setCursorSeq_eq col row s⟩
  | dspClearline => exact ⟨_, _, clearLine_eq s⟩
  | dspClearscreen => exact ⟨_, _, clearScreen_eq s⟩
  | dspPrintchar ch => exact ⟨_, _, printText_eq [ch] s⟩
  | dspPrintstr cs => exact ⟨_, _, printText_eq cs s⟩
  | dspPrintline cs => exact ⟨_, _, printLine_eq cs s⟩
  | dspPrintnum value digits decimal => exact ⟨_, _, printText_eq _ s⟩
  | _ => cases h

theorem wholeTransactions_evDisplay (c : Config) (x y : Byte) (i : Instr) : WholeTransactions (evDisplay c x y i) := by
  cases i with
  | dspInit => exact wholeTransactions_evTransaction ..
  | dspSetcursor col row => exact wholeTransactions_evCursor c col row
  | dspClearline => exact wholeTransactions_evClearLine c x y
  | dspClearscreen =>
    have hline := wholeTransactions_evClearLine c 0
    exact ((((wholeTransactions_evCursor c 0 0).append (hline 0)).append (hline 1)).append (hline 2)).append (hline 3)
  | dspPrintchar ch => exact wholeTransactions_evText c x y [ch]
  | dspPrintstr cs => exact wholeTransactions_evText c x y cs
  | dspPrintline cs => exact (wholeTransactions_evText c x y cs).append (wholeTransactions_evClearLine c _ _)
  | dspPrintnum value digits decimal => exact wholeTransactions_evText c x y _
  | _ => exact wholeTransactions_nil

/-- A display operation ends with a stop condition, so it leaves both lines released. -/
theorem replay_evDisplay {i : Instr} (h : isDsp i = true) (l : Bool × Bool) (c : Config) (x y : Byte) :
    replay l (evDisplay c x y i) = (false, false) := by
  cases i with
  | dspInit => exact replay_evDisplayCmd l c _
  | dspSetcursor col row => exact replay_evDisplayCmd l c _
  | dspClearline => exact replay_evClearLine l c x y
  | dspClearscreen => exact (replay_append ..).trans (replay_evClearLine _ c 0 3)
  | dspPrintchar ch => exact replay_evText l c x y [ch]
  | dspPrintstr cs => exact replay_evText l c x y cs
  | dspPrintline cs => exact (replay_append ..).trans (replay_evClearLine _ c _ _)
  | dspPrintnum value digits decimal => exact replay_evText l c x y _
  | _ => cases h

/-- A legal display operation answers next: its events are appended, the bus is idle, no answer is used up. -/
theorem exec_display {i : Instr} {s : State} (h : isDsp i = true) (hc : configOk s.cfg = true)
    (hw : i.wellFormed s.cfg.nGlyph = true) :
    ∃ t, exec i s = .next t ∧ t.trace = s.trace ++ evDisplay s.cfg s.curX s.curY i ∧
      BusIdle t ∧ t.answers = s.answers ∧ t.sampleNo = s.sampleNo := by
  have hi : i ≠ .tunWait := by rintro rfl; cases h
  obtain ⟨x, y, heff⟩ := effectOf_display h s
  have hlatch := replay_evDisplay h (s.sdaDrv, s.sclDrv) s.cfg s.curX s.curY
  refine ⟨advance i.length (effectOf i s), by rw [exec_perform i s hi, perform_ok hc hw], ?_⟩
  rw [heff]
  exact ⟨trace_emit _ s, ⟨congrArg Prod.fst hlatch, congrArg Prod.snd hlatch⟩, rfl, rfl⟩

/-! ### The obligation -/

/-- Settles O30: the events of the operation depend on its operands, the configuration and the cursor only, and they
split into whole transactions. -/
theorem displaySendsClosedTransactionsOnly : Obligations.DisplaySendsClosedTransactionsOnly := by
  intro i s hdsp hc hw
  obtain ⟨transactions, hsplit⟩ := wholeTransactions_evDisplay s.cfg s.curX s.curY i
  refine ⟨transactions, fun s' hcfg hx hy => ?_⟩
  have hexec := exec_display (s := s') hdsp (by rwa [hcfg]) (by rwa [hcfg])
  rwa [hcfg, hx, hy, hsplit] at hexec

end Sys2Proof.Machine

/-!
Proofs about the encoding (spec/30_encoding.md Part A). The decoder's table and the encoder are two views of one map:
`EncodesAs` says when a row of the table agrees with the encoder, every row does, and both halves of the round trip
follow format by format.
-/

namespace Sys2Proof

/-! ### The rows of the opcode map -/

/-- A row of the opcode map agrees with the encoder: every instruction the format builds has the row's opcode, and its
operand bytes are the ones the format reads (R61, R63). -/
def EncodesAs (n : Nat) : Format → Prop
  | .n i => i.opcode.toNat = n ∧ i.operandBytes = []
  | .b mk => ∀ x, (mk x).opcode.toNat = n ∧ (mk x).operandBytes = [x]
  | .bb mk => ∀ x y, (mk x y).opcode.toNat = n ∧ (mk x y).operandBytes = [x, y]
  | .h mk => ∀ v, (mk v).opcode.toNat = n ∧ (mk v).operandBytes = [hiByte v, loByte v]
  | .hbb mk => ∀ v z w, (mk v z w).opcode.toNat = n ∧ (mk v z w).operandBytes = [hiByte v, loByte v, z, w]
  | .s mk => ∀ s, (mk s).opcode.toNat = n ∧ (mk s).operandBytes = s ++ [0]

theorem encodesAs_of_mem : ∀ p ∈ opcodeMap, EncodesAs p.1 p.2 := by
  simp [opcodeMap, EncodesAs, Instr.opcode, Instr.operandBytes]

theorem encodesAs_of_lookup {n : Nat} {f : Format} (h : opcodeMap.lookup n = some f) : EncodesAs n f := by
  obtain ⟨before, after, hsplit, -⟩ := List.lookup_eq_some_iff.mp h
  exact encodesAs_of_mem (n, f) (by simp [hsplit])

/-- What a format of the map reads: an instruction with the row's opcode, whose operand bytes stand first. -/
theorem operands_some {n : Nat} {f : Format} {bytes : List Byte} {i : Instr} (hf : EncodesAs n f)
    (h : f.operands bytes = some i) : i.opcode.toNat = n ∧ ∃ rest, bytes = i.operandBytes ++ rest := by
  unfold Format.operands at h
  split at h
  case h_1 => cases h; exact ⟨hf.1, bytes, by rw [hf.2]; rfl⟩
  case h_2 x rest => cases h; exact ⟨(hf x).1, rest, by rw [(hf x).2]; rfl⟩
  case h_3 x y rest => cases h; exact ⟨(hf x y).1, rest, by rw [(hf x y).2]; rfl⟩
  case h_4 x y rest =>
    cases h
    exact ⟨(hf _).1, rest, by rw [(hf _).2, hiByte_joinBytes, loByte_joinBytes]; rfl⟩
  case h_5 x y z w rest =>
    cases h
    exact ⟨(hf _ z w).1, rest, by rw [(hf _ z w).2, hiByte_joinBytes, loByte_joinBytes]; rfl⟩
  case h_6 mk =>
    obtain ⟨s, hs, rfl⟩ := Option.map_eq_some_iff.mp h
    obtain ⟨rest, rfl⟩ := takeString_some hs
    exact ⟨(hf s).1, rest, by rw [(hf s).2]; simp⟩
  all_goals cases h

/-! ### The row of an instruction -/

/-- The format that reads an instruction's operands (R61, R63). -/
def Instr.format : Instr → Format
  | .busStart _ => .b .busStart
  | .busWrite _ => .b .busWrite
  | .busRead _ => .b .busRead
  | .busRestart _ => .b .busRestart
  | .busStop => .n .busStop
  | .dspInit => .n .dspInit
  | .dspSetcursor _ _ => .bb .dspSetcursor
  | .dspClearline => .n .dspClearline
  | .dspClearscreen => .n .dspClearscreen
  | .dspPrintchar _ => .b .dspPrintchar
  | .dspPrintstr _ => .s .dspPrintstr
  | .dspPrintline _ => .s .dspPrintline
  | .dspPrintnum _ _ _ => .hbb .dspPrintnum
  | .tunInit => .n .tunInit
  | .tunSetvol _ => .b .tunSetvol
  | .tunSetchan _ => .h .tunSetchan
  | .tunSeek => .n .tunSeek
  | .tunWait => .n .tunWait
  | .tunUpdate => .n .tunUpdate
  | .tunFreq => .n .tunFreq

theorem lookup_opcode (i : Instr) : opcodeMap.lookup i.opcode.toNat = some i.format := by
  cases i <;> rfl

theorem decode_of_operands_some {i j : Instr} {bytes : List Byte} (h : i.format.operands bytes = some j) :
    decode (i.opcode :: bytes) = .ok j := by
  simp only [decode, lookup_opcode, h]

theorem decode_of_operands_none {i : Instr} {bytes : List Byte} (h : i.format.operands bytes = none) :
    decode (i.opcode :: bytes) = .error .truncated := by
  simp only [decode, lookup_opcode, h]

/-- A legal text holds no terminator (R65, R67). -/
theorem ne_zero_of_all_charOk {n : Nat} {s : List Byte} (h : s.all (charOk n) = true) : ∀ c ∈ s, c ≠ 0 :=
  fun c hc => charOk_ne_zero (List.all_eq_true.mp h c hc)

theorem operands_operandBytes {i : Instr} {n : Nat} (h : i.wellFormed n = true) (rest : List Byte) :
    i.format.operands (i.operandBytes ++ rest) = some i := by
  cases i with
  | dspPrintstr s | dspPrintline s =>
    simp [Instr.format, Instr.operandBytes, Format.operands, takeString_append s rest (ne_zero_of_all_charOk h)]
  | dspPrintnum v digits decimal => simp [Instr.format, Instr.operandBytes, Format.operands, joinBytes_hi_lo]
  | tunSetchan v => simp [Instr.format, Instr.operandBytes, Format.operands, joinBytes_hi_lo]
  | _ => rfl

/-- A text cut off before its terminator has none (R68). -/
theorem takeString_take {s : List Byte} {k : Nat} (hs : ∀ c ∈ s, c ≠ 0) (hk : k < (s ++ [(0 : Byte)]).length) :
    takeString ((s ++ [(0 : Byte)]).take k) = none := by
  rw [List.length_append, List.length_singleton] at hk
  rw [List.take_append_of_le_length (by omega)]
  exact takeString_none _ (fun c hc => hs c (List.mem_of_mem_take hc))

/-- Fewer operand bytes than an instruction has are too few for its format (R68). -/
theorem operands_take {i : Instr} {n k : Nat} (h : i.wellFormed n = true) (hk : k < i.operandBytes.length) :
    i.format.operands (i.operandBytes.take k) = none := by
  cases i with
  | dspPrintstr s | dspPrintline s =>
    simp only [Instr.operandBytes, Instr.format, Format.operands] at hk ⊢
    rw [takeString_take (ne_zero_of_all_charOk h) hk]
    rfl
  | dspSetcursor col row =>
    obtain rfl | rfl : k = 0 ∨ k = 1 := by simp [Instr.operandBytes] at hk; omega
    all_goals rfl
  | tunSetchan v =>
    obtain rfl | rfl : k = 0 ∨ k = 1 := by simp [Instr.operandBytes] at hk; omega
    all_goals rfl
  | dspPrintnum v digits decimal =>
    obtain rfl | rfl | rfl | rfl : k = 0 ∨ k = 1 ∨ k = 2 ∨ k = 3 := by simp [Instr.operandBytes] at hk; omega
    all_goals rfl
  | busStart x | busWrite x | busRead x | busRestart x | dspPrintchar x | tunSetvol x =>
    obtain rfl : k = 0 := by simpa [Instr.operandBytes] using hk
    rfl
  | _ => simp [Instr.operandBytes] at hk

theorem encode_length (i : Instr) : (encode i).length = i.length := by
  cases i <;> simp [encode, Instr.operandBytes, Instr.length]

/-! ### What the decoder answers -/

theorem decode_ok {bytes : List Byte} {i : Instr} (h : decode bytes = .ok i) : ∃ rest, bytes = encode i ++ rest := by
  cases bytes with
  | nil => cases h
  | cons op bytes =>
    simp only [decode] at h
    split at h
    · cases h
    · rename_i f hf
      split at h
      · cases h
      · rename_i j hj
        cases h
        obtain ⟨hop, rest, rfl⟩ := operands_some (encodesAs_of_lookup hf) hj
        exact ⟨rest, by rw [← BitVec.eq_of_toNat_eq hop]; rfl⟩

theorem decode_reservedOpcode_iff (op : Byte) (rest : List Byte) :
    decode (op :: rest) = .error .reservedOpcode ↔ opcodeMap.lookup op.toNat = none := by
  simp only [decode]
  split
  · simp [*]
  · split <;> simp [*]

/-- The opcode bytes outside the map (R66). -/
theorem lookup_none_iff {n : Nat} : opcodeMap.lookup n = none ↔
    n ≤ 0x0F ∨ (0x15 ≤ n ∧ n ≤ 0x1F) ∨ (0x28 ≤ n ∧ n ≤ 0x2F) ∨ 0x37 ≤ n := by
  simp only [List.lookup_eq_none_iff, opcodeMap, List.cons_append, List.nil_append, List.forall_mem_cons, bne_iff_ne,
    List.not_mem_nil, false_imp_iff, implies_true, and_true]
  omega

/-! ### The obligations -/

/-- Settles O1: the decoder finds the instruction's own format, which reads back its operand bytes. -/
theorem decodeOfEncode : Obligations.DecodeOfEncode := by
  intro i n rest h
  exact decode_of_operands_some (operands_operandBytes h rest)

/-- Settles O2: whatever decodes to an instruction begins with its encoding. -/
theorem encodeOfDecode : Obligations.EncodeOfDecode := by
  intro bytes i h
  obtain ⟨rest, rfl⟩ := decode_ok h
  rw [← encode_length i]
  exact ⟨List.take_left' rfl, by simp⟩

/-- Settles O3: the reserved opcodes are the numbers no row of the map has. -/
theorem reservedOpcodesAreThoseListed : Obligations.ReservedOpcodesAreThoseListed := fun op rest =>
  (decode_reservedOpcode_iff op rest).trans lookup_none_iff

/-- Settles O4: the opcode is there, so the format is found, and it lacks operand bytes. -/
theorem cutOffCommandsAreTruncated : Obligations.CutOffCommandsAreTruncated := by
  intro i n k h hpos hk
  obtain ⟨k, rfl⟩ := Nat.exists_eq_succ_of_ne_zero hpos.ne'
  have hcut : k < i.operandBytes.length := by
    rw [← encode_length, encode, List.length_cons] at hk
    omega
  exact decode_of_operands_none (operands_take h hcut)

/-- Settles O5, by running the decoder on the five words. -/
theorem sampleWordsDecode : Obligations.SampleWordsDecode := by
  unfold Obligations.SampleWordsDecode
  decide

end Sys2Proof

/-!
Proofs about the step (spec/60_exceptions.md R181, R183; spec/30_encoding.md R60, R68): what the next command is, and
that a step runs it or refuses it under the reason's name.
-/

namespace Sys2Proof

/-! ### The whole decode result -/

theorem decodeLegal_of_error {n : Nat} {bytes : List Byte} {e : DecodeError} (h : decode bytes = .error e) :
    decodeLegal n bytes = .error e := by
  simp only [decodeLegal, h]

theorem decodeLegal_of_wellFormed {n : Nat} {bytes : List Byte} {i : Instr} (h : decode bytes = .ok i)
    (hw : i.wellFormed n = true) : decodeLegal n bytes = .ok i := by
  simp only [decodeLegal, h, hw, if_true]

theorem decodeLegal_of_not_wellFormed {n : Nat} {bytes : List Byte} {i : Instr} (h : decode bytes = .ok i)
    (hw : i.wellFormed n = false) : decodeLegal n bytes = .error .reservedOperand := by
  simp [decodeLegal, h, hw]

/-- The decoder itself reads operands unchecked; the operand check is `decodeLegal`'s (log 11). -/
theorem decode_ne_reservedOperand (bytes : List Byte) : decode bytes ≠ .error .reservedOperand := by
  cases bytes with
  | nil => simp [decode]
  | cons op rest =>
    simp only [decode]
    split
    · simp
    · split <;> simp

end Sys2Proof

namespace Sys2Proof.Machine

/-! ### What a step does with the next command -/

theorem step_badConfiguration {s : State} (hc : configOk s.cfg = false) : step s = .refused .badConfiguration := by
  simp [step, nextCommand, hc]

theorem step_atEnd {s : State} (hc : configOk s.cfg = true) (hend : s.stream.length ≤ s.cp) : step s = .next s := by
  simp [step, nextCommand, hc, hend]

theorem step_of_decodeLegal_error {s : State} {e : DecodeError} (hc : configOk s.cfg = true)
    (hcp : s.cp < s.stream.length) (h : decodeLegal s.cfg.nGlyph s.fetch = .error e) :
    step s = .refused (refusalOf e) := by
  simp [step, nextCommand, hc, Nat.not_le.mpr hcp, h]

theorem step_of_decodeLegal_ok {s : State} {i : Instr} (hc : configOk s.cfg = true) (hcp : s.cp < s.stream.length)
    (h : decodeLegal s.cfg.nGlyph s.fetch = .ok i) : step s = exec i s := by
  simp [step, nextCommand, hc, Nat.not_le.mpr hcp, h]

theorem exec_badConfiguration {i : Instr} {s : State} (hc : configOk s.cfg = false) :
    exec i s = .refused .badConfiguration := by
  obtain ⟨k, hk⟩ := exec_guarded i s
  rw [hk, guarded_bad hc]

theorem exec_reservedOperand {i : Instr} {s : State} (hc : configOk s.cfg = true)
    (hw : i.wellFormed s.cfg.nGlyph = false) : exec i s = .refused .reservedOperand := by
  obtain ⟨k, hk⟩ := exec_guarded i s
  rw [hk, guarded_reserved hc hw]

theorem exec_answers {i : Instr} {s : State} (hc : configOk s.cfg = true) (hw : i.wellFormed s.cfg.nGlyph = true) :
    ∃ t, exec i s = .next t := by
  obtain ⟨k, hk⟩ := exec_guarded i s
  exact ⟨k, by rw [hk, guarded_ok hc hw]⟩

/-! ### The obligations -/

/-- Settles O6: the decoded command is legal, so it is the next command. -/
theorem stepRunsDecodedCommand : Obligations.StepRunsDecodedCommand := fun _ _ hc hcp hd hw =>
  step_of_decodeLegal_ok hc hcp (decodeLegal_of_wellFormed hd hw)

/-- Settles O10. -/
theorem stepIdlesAtEndOfStream : Obligations.StepIdlesAtEndOfStream := fun _ => step_atEnd

/-- Settles O7, reason by reason. -/
theorem stepRefusesInOrder : Obligations.StepRefusesInOrder := fun _ =>
  ⟨step_badConfiguration, fun hc hcp =>
    ⟨fun hd => step_of_decodeLegal_error hc hcp (decodeLegal_of_error hd),
      fun hd => step_of_decodeLegal_error hc hcp (decodeLegal_of_error hd),
      fun _ hd hw => step_of_decodeLegal_error hc hcp (decodeLegal_of_not_wellFormed hd hw)⟩⟩

/-- Settles O8: the cases of the next command, in the order of R183. -/
theorem nothingElseIsRefused : Obligations.NothingElseIsRefused := by
  intro s
  cases hc : configOk s.cfg with
  | false => exact .inr (.inl ⟨step_badConfiguration hc, rfl⟩)
  | true =>
    rcases Nat.lt_or_ge s.cp s.stream.length with hcp | hend
    · cases hd : decode s.fetch with
      | error e =>
        have hstep := step_of_decodeLegal_error hc hcp (decodeLegal_of_error hd)
        cases e with
        | reservedOpcode => exact .inr (.inr (.inl ⟨hstep, rfl⟩))
        | truncated => exact .inr (.inr (.inr (.inl ⟨hstep, rfl⟩)))
        | reservedOperand => exact absurd hd (decode_ne_reservedOperand _)
      | ok i =>
        cases hw : i.wellFormed s.cfg.nGlyph with
        | true =>
          rw [step_of_decodeLegal_ok hc hcp (decodeLegal_of_wellFormed hd hw)]
          exact .inl (exec_answers hc hw)
        | false =>
          have hstep := step_of_decodeLegal_error hc hcp (decodeLegal_of_not_wellFormed hd hw)
          exact .inr (.inr (.inr (.inr ⟨hstep, i, rfl, hw⟩)))
    · exact .inl ⟨s, step_atEnd hc hend⟩

/-- Settles O9: every meaning is guarded by the two checks. -/
theorem execRunsLegalRefusesReserved : Obligations.ExecRunsLegalRefusesReserved := fun _ _ =>
  ⟨exec_badConfiguration, exec_reservedOperand, exec_answers⟩

end Sys2Proof.Machine

/-!
What one instruction does, in one equation: it emits a list of events, uses up as many answers as those events sample,
and leaves registers that depend on the state before (`exec_next`, `exec_runs`). The three parts are definitions of
their own, tied to the model by `bodyOf_eq`; every later statement about `exec` reads a field off them.
-/

namespace Sys2Proof.Machine

/-! ### The banks and events of the tuner operations -/

/-- The writable bank with its soft-reset bit set (R145). -/
def bankResetOn (c : Config) (w : Vector Word 6) : Vector Word 6 :=
  bankSet w c.rReset (bankGet w c.rReset ||| c.mReset)

/-- The writable bank with its soft-reset bit clear (R145). -/
def bankResetOff (c : Config) (w : Vector Word 6) : Vector Word 6 :=
  bankSet w c.rReset (bankGet w c.rReset &&& ~~~c.mReset)

/-- The writable bank with the volume field at a level (R146). -/
def bankWithVol (c : Config) (level : Byte) (w : Vector Word 6) : Vector Word 6 :=
  bankSet w c.rVol (mergeVol c (bankGet w c.rVol) level)

/-- The writable bank with the channel field at a channel and the tune flag set (R147). -/
def bankWithChan (c : Config) (chan : Word) (w : Vector Word 6) : Vector Word 6 :=
  bankSet w c.rChan (mergeChan c (bankGet w c.rChan) chan)

/-- The writable bank with the seek flag set (R148). -/
def bankSeeking (c : Config) (w : Vector Word 6) : Vector Word 6 :=
  bankSet w c.rSeek (bankGet w c.rSeek ||| c.mSeek)

/-- The writable bank with the tune flag clear (R150). -/
def bankTuneOff (c : Config) (w : Vector Word 6) : Vector Word 6 :=
  bankSet w c.rChan (bankGet w c.rChan &&& ~~~c.mTune)

/-- The writable bank with the seek flag clear (R150). -/
def bankSeekOff (c : Config) (w : Vector Word 6) : Vector Word 6 :=
  bankSet w c.rSeek (bankGet w c.rSeek &&& ~~~c.mSeek)

/-- The writable bank after the completion branch of a poll that read `bank` (R150). -/
def bankRetired (c : Config) (bank w : Vector Word 6) : Vector Word 6 :=
  if stcSet c bank then bankSeekOff c (bankTuneOff c w) else w

/-- The request register with the radio-data request flag clear (R150). -/
def requestOff (c : Config) (w : Vector Word 6) : Word := bankGet w c.rRdsreq &&& ~~~c.mRdsreq

/-- The request register with the radio-data request flag clear, then set (R150). -/
def requestOn (c : Config) (w : Vector Word 6) : Word := requestOff c w ||| c.mRdsreq

/-- The writable bank after a poll that read `bank` (R150). -/
def bankPolled (c : Config) (bank w : Vector Word 6) : Vector Word 6 :=
  if rdsrSet c bank then bankSet (bankRetired c bank w) c.rRdsreq (requestOn c (bankRetired c bank w))
  else bankRetired c bank w

/-- The driver state after a poll that read `bank` (R161). -/
def tstatePolled (c : Config) (bank : Vector Word 6) (t : TState) : TState :=
  if stcSet c bank && (t == .seeking || t == .tuning) then .idle else t

/-- The buffers `(NAME, CAND)` after a poll that read `bank` (R158). -/
def bufsPolled (c : Config) (bank : Vector Word 6) (bufs : Vector Byte 9 × Vector Byte 9) :
    Vector Byte 9 × Vector Byte 9 :=
  if rdsrSet c bank then decodeGroup c bank bufs else bufs

/-- The two write-one frames of a poll that read radio-data available (R150). -/
def evToggle (c : Config) (bank w : Vector Word 6) : List Event :=
  if rdsrSet c bank then
    evWriteOne c c.rRdsreq (requestOff c (bankRetired c bank w)) ++
      evWriteOne c c.rRdsreq (requestOn c (bankRetired c bank w))
  else []

/-- The bank that a state's next poll reads. -/
def State.nextBank (s : State) : Vector Word 6 := bankOf (s.nextDrives 96)

/-! ### The three parts of what an instruction does -/

/-- The events an instruction emits. -/
def State.eventsOf (s : State) : Instr → List Event
  | .busStart a => evStart ++ evWrite a
  | .busWrite b => evWrite b
  | .busRead k => evRead (s.nextDrives 8) (k == 1)
  | .busRestart a => evRestart ++ evWrite a
  | .busStop => evStop
  | .tunInit =>
    evWriteBank s.cfg (bankResetOn s.cfg s.wreg) ++ evWriteBank s.cfg (bankResetOff s.cfg (bankResetOn s.cfg s.wreg)) ++
      evWriteOne s.cfg s.cfg.rVol
        (mergeVol s.cfg (bankGet (bankResetOff s.cfg (bankResetOn s.cfg s.wreg)) s.cfg.rVol) s.cfg.startVolume)
  | .tunSetvol level => evWriteOne s.cfg s.cfg.rVol (mergeVol s.cfg (bankGet s.wreg s.cfg.rVol) level)
  | .tunSetchan chan => evWriteOne s.cfg s.cfg.rChan (mergeChan s.cfg (bankGet s.wreg s.cfg.rChan) chan)
  | .tunSeek => evWriteOne s.cfg s.cfg.rSeek (bankGet s.wreg s.cfg.rSeek ||| s.cfg.mSeek)
  | .tunWait | .tunUpdate => evReadBank s.cfg (s.nextDrives 96) ++ evToggle s.cfg s.nextBank s.wreg
  | .tunFreq => []
  | i => evDisplay s.cfg s.curX s.curY i

/-- How many answers of the environment an instruction uses up; of a `TUN.WAIT`, one turn. -/
def samplesOf : Instr → Nat
  | .busRead _ => 8
  | .tunWait | .tunUpdate => 96
  | _ => 0

/-- The cursor shadow after an instruction (R16). -/
def State.cursorOf (s : State) : Instr → Byte × Byte
  | .dspSetcursor col row => (col, row)
  | .dspClearline => (0, s.curY + 1)
  | .dspClearscreen => (0, 4)
  | .dspPrintchar _ => cursorAfter 1 (s.curX, s.curY)
  | .dspPrintstr cs => cursorAfter cs.length (s.curX, s.curY)
  | .dspPrintline cs => (0, (cursorAfter cs.length (s.curX, s.curY)).2 + 1)
  | .dspPrintnum value digits decimal =>
    cursorAfter (numberChars decimal digits.toNat value false).length (s.curX, s.curY)
  | _ => (s.curX, s.curY)

/-- The state with the registers an instruction leaves; latches, trace, answers and `cp` as before. -/
def State.registersAfter (s : State) : Instr → State
  | .busRead _ => { s with res := (byteOf (s.nextDrives 8)).zeroExtend 16 }
  | .tunInit => { s with
      name := blankSlots s.name, tstate := .idle
      wreg := bankWithVol s.cfg s.cfg.startVolume (bankResetOff s.cfg (bankResetOn s.cfg s.wreg)) }
  | .tunSetvol level => { s with wreg := bankWithVol s.cfg level s.wreg }
  | .tunSetchan chan => { s with
      name := blankSlots s.name, tstate := .tuning, wreg := bankWithChan s.cfg chan s.wreg }
  | .tunSeek => { s with name := blankSlots s.name, tstate := .seeking, wreg := bankSeeking s.cfg s.wreg }
  | .tunWait | .tunUpdate => { s with
      rreg := s.nextBank, wreg := bankPolled s.cfg s.nextBank s.wreg
      tstate := tstatePolled s.cfg s.nextBank s.tstate
      name := (bufsPolled s.cfg s.nextBank (s.name, s.cand)).1
      cand := (bufsPolled s.cfg s.nextBank (s.name, s.cand)).2 }
  | .tunFreq => { s with res := freq (chanRd s.cfg s.rreg) }
  | i => setCursor (s.cursorOf i).1 (s.cursorOf i).2 s

theorem eventsOf_tunInit (s : State) : s.eventsOf .tunInit =
    evWriteBank s.cfg (bankResetOn s.cfg s.wreg) ++ evWriteBank s.cfg (bankResetOff s.cfg (bankResetOn s.cfg s.wreg)) ++
      evWriteOne s.cfg s.cfg.rVol
        (mergeVol s.cfg (bankGet (bankResetOff s.cfg (bankResetOn s.cfg s.wreg)) s.cfg.rVol) s.cfg.startVolume) := rfl

theorem eventsOf_tunUpdate (s : State) : s.eventsOf .tunUpdate =
    evReadBank s.cfg (s.nextDrives 96) ++ evToggle s.cfg s.nextBank s.wreg := rfl

theorem eventsOf_tunWait (s : State) : s.eventsOf .tunWait = s.eventsOf .tunUpdate := rfl

theorem eventsOf_display {i : Instr} (s : State) (h : isDsp i = true) :
    s.eventsOf i = evDisplay s.cfg s.curX s.curY i := by
  cases i with
  | dspInit | dspSetcursor | dspClearline | dspClearscreen | dspPrintchar | dspPrintstr | dspPrintline | dspPrintnum => rfl
  | _ => cases h

theorem samplesOf_display {i : Instr} (h : isDsp i = true) : samplesOf i = 0 := by
  cases i with
  | busRead | tunWait | tunUpdate => cases h
  | _ => rfl

theorem registersAfter_tunUpdate (s : State) : s.registersAfter .tunUpdate = { s with
    rreg := s.nextBank, wreg := bankPolled s.cfg s.nextBank s.wreg
    tstate := tstatePolled s.cfg s.nextBank s.tstate
    name := (bufsPolled s.cfg s.nextBank (s.name, s.cand)).1
    cand := (bufsPolled s.cfg s.nextBank (s.name, s.cand)).2 } := rfl

theorem registersAfter_tunWait (s : State) : s.registersAfter .tunWait = s.registersAfter .tunUpdate := rfl

/-! ### Each tuner operation as events and registers -/

/-- TUN.INIT's register changes before the volume is set. -/
def resetPulsed (s : State) : State :=
  { s with name := blankSlots s.name, tstate := .idle, wreg := bankResetOff s.cfg (bankResetOn s.cfg s.wreg) }

/-- The reset pulse: the bank sent with the bit set, then with it clear (R145). -/
theorem resetPulse_eq (s : State) :
    let reset := setTstate .softreset (writeBank (setBits s.cfg.rReset s.cfg.mReset (clearName s)))
    setTstate .idle (writeBank (clearBits reset.cfg.rReset reset.cfg.mReset reset)) =
      emit (evWriteBank s.cfg (bankResetOn s.cfg s.wreg) ++
        evWriteBank s.cfg (bankResetOff s.cfg (bankResetOn s.cfg s.wreg))) (resetPulsed s) := by
  simp only [writeBank_eq, setBits, clearBits, setTstate_emit, setWreg_emit, emit_emit, setTstate_cfg, emit_cfg,
    setWreg_cfg, clearName_cfg, emit_wreg, setWreg_wreg, setTstate_wreg, clearName_wreg, wregAt]
  rfl

theorem initTuner_eq (s : State) (h : s.cfg.rVol < 6) :
    initTuner s = emit (s.eventsOf .tunInit) (s.registersAfter .tunInit) := by
  have hv : (resetPulsed s).cfg.rVol < 6 := h
  simp only [initTuner, resetPulse_eq]
  rw [setVolSeq_eq _ _ (by exact hv)]
  simp only [emit_cfg, wregAt_emit, setWreg_emit, emit_emit]
  rfl

theorem setVolSeq_registers (level : Byte) (s : State) (h : s.cfg.rVol < 6) :
    setVolSeq level s = emit (s.eventsOf (.tunSetvol level)) (s.registersAfter (.tunSetvol level)) := by
  rw [setVolSeq_eq level s h, setWreg_emit]
  rfl

theorem setChannel_eq (chan : Word) (s : State) (h : s.cfg.rChan < 6) :
    setChannel chan s = emit (s.eventsOf (.tunSetchan chan)) (s.registersAfter (.tunSetchan chan)) := by
  simp only [setChannel, writeOne_eq, setTstate_emit, setWreg_cfg, clearName_cfg, wregAt_setWreg_self _ _ _ h]
  rfl

theorem seekNext_eq (s : State) (h : s.cfg.rSeek < 6) :
    seekNext s = emit (s.eventsOf .tunSeek) (s.registersAfter .tunSeek) := by
  simp only [seekNext, writeOne_eq, setBits, setTstate_emit, setWreg_cfg, clearName_cfg, wregAt_setWreg_self _ _ _ h]
  rfl

/-- What the completion part of a poll leaves in the registers, whether `STC` is set or not (R150). -/
def retired (s : State) : State :=
  { s with wreg := bankRetired s.cfg s.rreg s.wreg, tstate := tstatePolled s.cfg s.rreg s.tstate }

theorem retire_eq (s : State) : (if stcSet s.cfg s.rreg then retireFlags s else s) = retired s := by
  rw [retireFlags_eq]
  cases h : stcSet s.cfg s.rreg with
  | false => simp [retired, bankRetired, tstatePolled, h]
  | true =>
    simp only [retired, bankRetired, tstatePolled, h, if_true, Bool.true_and, Bool.or_eq_true, beq_iff_eq]
    rfl

theorem retired_emit (evs : List Event) (s : State) : retired (emit evs s) = emit evs (retired s) := rfl

/-- What the radio-data part of a poll leaves in the registers, whether `RDSR` is set or not (R150). -/
def requested (s : State) : State :=
  { s with
    wreg := if rdsrSet s.cfg s.rreg then bankSet s.wreg s.cfg.rRdsreq (requestOn s.cfg s.wreg) else s.wreg
    name := (bufsPolled s.cfg s.rreg (s.name, s.cand)).1
    cand := (bufsPolled s.cfg s.rreg (s.name, s.cand)).2 }

theorem requested_emit (evs : List Event) (s : State) : requested (emit evs s) = emit evs (requested s) := rfl

theorem request_eq (s : State) (h : s.cfg.rRdsreq < 6) :
    (if rdsrSet s.cfg s.rreg then requestAndDecode s else s) =
      emit (if rdsrSet s.cfg s.rreg then evWriteOne s.cfg s.cfg.rRdsreq (requestOff s.cfg s.wreg) ++
          evWriteOne s.cfg s.cfg.rRdsreq (requestOn s.cfg s.wreg) else []) (requested s) := by
  rw [requestAndDecode_eq s h]
  cases hr : rdsrSet s.cfg s.rreg with
  | false => simp [requested, bufsPolled, hr]
  | true => simp only [requested, bufsPolled, hr, if_true]; rfl

/-- A poll that read the bank: the toggle's events, and the registers of both parts. -/
theorem afterRead_eq (s : State) (h : s.cfg.rRdsreq < 6) :
    (if rdsrSet (retired s).cfg (retired s).rreg then requestAndDecode (retired s) else retired s) =
      emit (evToggle s.cfg s.rreg s.wreg) (requested (retired s)) :=
  request_eq (retired s) h

theorem registersAfter_poll (s : State) :
    requested (retired { consume 96 s with rreg := s.nextBank }) = consume 96 (s.registersAfter .tunUpdate) := rfl

theorem update_eq (s : State) (h : s.cfg.rRdsreq < 6) :
    update s = emit (s.eventsOf .tunUpdate) (consume 96 (s.registersAfter .tunUpdate)) := by
  have hread : readBank s =
    emit (evReadBank s.cfg (s.nextDrives 96)) { consume 96 s with rreg := s.nextBank } := readBank_eq s
  have hr : (readBank s).cfg.rRdsreq < 6 := by rw [hread]; exact h
  simp only [update, retire_eq]
  rw [afterRead_eq _ hr, hread, retired_emit, requested_emit, registersAfter_poll, emit_emit]
  rfl

/-! ### The whole instruction -/

/-- A printed character is a text of one (R120). -/
theorem printChar_eq (ch : Byte) (s : State) :
    printChar ch s = setCursor (cursorAfter 1 (s.curX, s.curY)).1 (cursorAfter 1 (s.curX, s.curY)).2
      (emit (evText s.cfg s.curX s.curY [ch]) s) := printText_eq [ch] s

/-- The effect of an instruction apart from the move of `cp`; of a `TUN.WAIT`, one poll (R159, log 4). -/
def bodyOf : Instr → State → State
  | .tunWait => update
  | i => effectOf i

theorem bodyOf_of_ne_wait {i : Instr} (h : i ≠ .tunWait) : bodyOf i = effectOf i := by
  unfold bodyOf
  split
  · exact absurd rfl h
  · rfl

/-- A display operation's registers are the cursor, and it uses up no answer. -/
theorem bodyOf_display {i : Instr} {s u : State} (hs : samplesOf i = 0)
    (hr : s.registersAfter i = setCursor (s.cursorOf i).1 (s.cursorOf i).2 s)
    (h : u = setCursor (s.cursorOf i).1 (s.cursorOf i).2 (emit (s.eventsOf i) s)) :
    u = emit (s.eventsOf i) (consume (samplesOf i) (s.registersAfter i)) := by
  rw [h, hr, hs, setCursor_emit, consume_zero]

/-- All an instruction can do: emit its events, use up its answers, leave its registers. -/
theorem bodyOf_eq (i : Instr) (s : State) (hc : configOk s.cfg = true) :
    bodyOf i s = emit (s.eventsOf i) (consume (samplesOf i) (s.registersAfter i)) := by
  obtain ⟨-, hseek, hrds, hchan, hvol, -⟩ := configOk_indices hc
  cases i with
  | busStart a => exact start_eq a s
  | busWrite b => exact write_eq b s
  | busRead k => exact busReadEffect_eq k s
  | busRestart a => exact restart_eq a s
  | busStop => exact stop_eq s
  | dspInit => exact bodyOf_display rfl rfl (displayCmd_eq s.cfg.initSeq s)
  | dspSetcursor col row => exact bodyOf_display rfl rfl (setCursorSeq_eq col row s)
  | dspClearline => exact bodyOf_display rfl rfl (clearLine_eq s)
  | dspClearscreen => exact bodyOf_display rfl rfl (clearScreen_eq s)
  | dspPrintchar ch => exact bodyOf_display rfl rfl (printChar_eq ch s)
  | dspPrintstr cs => exact bodyOf_display rfl rfl (printText_eq cs s)
  | dspPrintline cs => exact bodyOf_display rfl rfl (printLine_eq cs s)
  | dspPrintnum value digits decimal => exact bodyOf_display rfl rfl (printText_eq _ s)
  | tunInit => exact initTuner_eq s hvol
  | tunSetvol level => exact setVolSeq_registers level s hvol
  | tunSetchan chan => exact setChannel_eq chan s hchan
  | tunSeek => exact seekNext_eq s hseek
  | tunWait => exact update_eq s hrds
  | tunUpdate => exact update_eq s hrds
  | tunFreq => rfl

theorem advance_zero (s : State) : advance 0 s = s := rfl

/-- One turn of `TUN.WAIT` is a poll, and `cp` moves past the command when that poll reads `STC` set (R159). -/
theorem waitTurn_eq (s : State) :
    waitTurn s = advance (if stcSet (update s).cfg (update s).rreg then 1 else 0) (update s) := by
  cases h : stcSet (update s).cfg (update s).rreg <;> simp [waitTurn, h, advance_zero, Instr.length]

/-- Whatever an instruction answers as next state is its events, answers and registers, with `cp` moved. -/
theorem exec_next {i : Instr} {s t : State} (h : exec i s = .next t) :
    ∃ n, t = advance n (emit (s.eventsOf i) (consume (samplesOf i) (s.registersAfter i))) := by
  have hc := (exec_legal h).1
  rw [← bodyOf_eq i s hc]
  by_cases hi : i = .tunWait
  · subst hi
    rw [exec_wait] at h
    obtain ⟨-, -, rfl⟩ := guarded_next h
    exact ⟨_, waitTurn_eq s⟩
  · rw [exec_perform i s hi] at h
    obtain ⟨-, -, rfl⟩ := perform_next h
    exact ⟨i.length, by rw [bodyOf_of_ne_wait hi]⟩

end Sys2Proof.Machine

/-!
Frames and invariants of the whole machine (spec/10_state.md R11, R15, R16, R21, R31; spec/40_bus.md R90 to R95): which
registers an instruction keeps, what it appends to the trace, and where that leaves the latches. All are read off the
one equation `exec_next`.
-/

namespace Sys2Proof.Machine

/-! ### What every instruction's registers keep -/

@[simp] theorem registersAfter_cfg (s : State) (i : Instr) : (s.registersAfter i).cfg = s.cfg := by cases i <;> rfl
@[simp] theorem registersAfter_stream (s : State) (i : Instr) : (s.registersAfter i).stream = s.stream := by cases i <;> rfl
@[simp] theorem registersAfter_cp (s : State) (i : Instr) : (s.registersAfter i).cp = s.cp := by cases i <;> rfl
@[simp] theorem registersAfter_sdaDrv (s : State) (i : Instr) : (s.registersAfter i).sdaDrv = s.sdaDrv := by cases i <;> rfl
@[simp] theorem registersAfter_sclDrv (s : State) (i : Instr) : (s.registersAfter i).sclDrv = s.sclDrv := by cases i <;> rfl
@[simp] theorem registersAfter_traceRev (s : State) (i : Instr) : (s.registersAfter i).traceRev = s.traceRev := by
  cases i <;> rfl
@[simp] theorem registersAfter_answers (s : State) (i : Instr) : (s.registersAfter i).answers = s.answers := by cases i <;> rfl
@[simp] theorem registersAfter_sampleNo (s : State) (i : Instr) : (s.registersAfter i).sampleNo = s.sampleNo := by
  cases i <;> rfl

/-! ### The fields of the next state -/

section
variable {i : Instr} {s t : State} (h : exec i s = .next t)
include h

theorem exec_next_program : t.cfg = s.cfg ∧ t.stream = s.stream := by
  obtain ⟨n, rfl⟩ := exec_next h
  simp

theorem exec_next_registers : t.res = (s.registersAfter i).res ∧ t.curX = (s.registersAfter i).curX ∧
    t.curY = (s.registersAfter i).curY ∧ t.wreg = (s.registersAfter i).wreg ∧ t.rreg = (s.registersAfter i).rreg ∧
    t.name = (s.registersAfter i).name ∧ t.cand = (s.registersAfter i).cand ∧ t.tstate = (s.registersAfter i).tstate := by
  obtain ⟨n, rfl⟩ := exec_next h
  simp

theorem exec_next_trace : t.trace = s.trace ++ s.eventsOf i := by
  obtain ⟨n, rfl⟩ := exec_next h
  simp [State.trace]

theorem exec_next_latches : (t.sdaDrv, t.sclDrv) = replay (s.sdaDrv, s.sclDrv) (s.eventsOf i) := by
  obtain ⟨n, rfl⟩ := exec_next h
  simp

theorem exec_next_answers : t.answers = s.answers.drop (samplesOf i) ∧ t.sampleNo = s.sampleNo + samplesOf i := by
  obtain ⟨n, rfl⟩ := exec_next h
  simp

end

/-! ### Samples -/

theorem sampledBits_flatMap {α : Type} (l : List α) (f : α → List Event) :
    sampledBits (l.flatMap f) = l.flatMap (fun a => sampledBits (f a)) := by
  induction l with
  | nil => rfl
  | cons a l ih => simp [sampledBits_append, ih]

theorem sampledBits_evWriteOne (c : Config) (i : Nat) (v : Word) : sampledBits (evWriteOne c i v) = [] :=
  sampledBits_evTransaction ..

theorem sampledBits_evWriteBank (c : Config) (w : Vector Word 6) : sampledBits (evWriteBank c w) = [] :=
  sampledBits_evTransaction ..

theorem sampledBits_evDisplay (c : Config) (x y : Byte) (i : Instr) : sampledBits (evDisplay c x y i) = [] := by
  obtain ⟨transactions, hsplit⟩ := wholeTransactions_evDisplay c x y i
  simp [hsplit, sampledBits_flatMap, sampledBits_evTransaction]

theorem sampledBits_evToggle (c : Config) (bank w : Vector Word 6) : sampledBits (evToggle c bank w) = [] := by
  unfold evToggle
  split
  · simp [sampledBits_append, sampledBits_evWriteOne]
  · rfl

/-- The bytes of a list of bits, in order, are its first bits (R48). -/
theorem flatMap_bytes (bits : List Bool) (n : Nat) :
    (List.range n).flatMap (fun k => (bits.drop (8 * k)).take 8) = bits.take (8 * n) := by
  induction n with
  | zero => rfl
  | succ n ih => rw [List.range_succ, List.flatMap_append, ih, Nat.mul_succ, List.take_add]; simp

theorem sampledBits_evReadBank (c : Config) {bits : List Bool} (h : bits.length = 96) :
    sampledBits (evReadBank c bits) = bits := by
  have hstart : sampledBits evStart = [] := rfl
  have hstop : sampledBits evStop = [] := rfl
  simp only [evReadBank, sampledBits_append, sampledBits_evWrite, sampledBits_flatMap, sampledBits_evRead, hstart, hstop,
    flatMap_bytes, List.nil_append, List.append_nil]
  exact List.take_of_length_le h.le

/-- An instruction's events hold as samples exactly the answers it uses up (R94). -/
theorem sampledBits_eventsOf (s : State) (i : Instr) : sampledBits (s.eventsOf i) = s.nextDrives (samplesOf i) := by
  cases hdsp : isDsp i with
  | true => rw [eventsOf_display s hdsp, samplesOf_display hdsp, sampledBits_evDisplay]; rfl
  | false =>
    cases i with
    | busStart a => exact sampledBits_evStart_evWrite a
    | busWrite b => exact sampledBits_evWrite b
    | busRead k => exact sampledBits_evRead _ _
    | busRestart a => exact sampledBits_evRestart_evWrite a
    | busStop => rfl
    | tunInit =>
      simp only [eventsOf_tunInit, sampledBits_append, sampledBits_evWriteBank, sampledBits_evWriteOne]
      rfl
    | tunSetvol level => exact sampledBits_evWriteOne ..
    | tunSetchan chan => exact sampledBits_evWriteOne ..
    | tunSeek => exact sampledBits_evWriteOne ..
    | tunWait | tunUpdate =>
      simp only [eventsOf_tunWait, eventsOf_tunUpdate, sampledBits_append,
        sampledBits_evReadBank _ (nextDrives_length 96 s), sampledBits_evToggle, List.append_nil, samplesOf]
    | tunFreq => rfl
    | _ => cases hdsp

/-! ### Latches -/

theorem replay_evToggle (c : Config) (bank w : Vector Word 6) :
    replay (false, false) (evToggle c bank w) = (false, false) := by
  unfold evToggle
  split
  · rw [replay_append, replay_evWriteOne]
  · rfl

/-- Outside the BUS family an operation that emits anything ends with a stop condition (R31 (e)). -/
theorem replay_eventsOf {i : Instr} (s : State) (hbus : isBus i = false) (hfreq : i ≠ .tunFreq) (l : Bool × Bool) :
    replay l (s.eventsOf i) = (false, false) := by
  cases hdsp : isDsp i with
  | true => rw [eventsOf_display s hdsp, replay_evDisplay hdsp]
  | false =>
    cases i with
    | tunInit => rw [eventsOf_tunInit, replay_append, replay_evWriteOne]
    | tunSetvol level => exact replay_evWriteOne ..
    | tunSetchan chan => exact replay_evWriteOne ..
    | tunSeek => exact replay_evWriteOne ..
    | tunWait | tunUpdate =>
      simp only [eventsOf_tunWait, eventsOf_tunUpdate, replay_append, replay_evReadBank, replay_evToggle]
    | tunFreq => exact absurd rfl hfreq
    | busStart | busWrite | busRead | busRestart | busStop => cases hbus
    | _ => cases hdsp

theorem latchesFollowTrace_of_exec {i : Instr} {s t : State} (hs : LatchesFollowTrace s) (h : exec i s = .next t) :
    LatchesFollowTrace t := by
  rw [LatchesFollowTrace, exec_next_trace h, replay_append, hs, exec_next_latches h]

/-! ### The whole next state of a legal instruction -/

/-- A legal instruction other than `TUN.WAIT` answers its registers, with `cp` past the command and its events appended. -/
theorem exec_runs {i : Instr} {s : State} {sda scl : Bool} (hi : i ≠ .tunWait) (hc : configOk s.cfg = true)
    (hw : i.wellFormed s.cfg.nGlyph = true) (hl : replay (s.sdaDrv, s.sclDrv) (s.eventsOf i) = (sda, scl)) :
    exec i s = .next { s.registersAfter i with
      cp := s.cp + i.length, sdaDrv := sda, sclDrv := scl
      answers := s.answers.drop (samplesOf i), sampleNo := s.sampleNo + samplesOf i
      traceRev := (s.eventsOf i).reverse ++ s.traceRev } := by
  rw [exec_perform i s hi, perform_ok hc hw, ← bodyOf_of_ne_wait hi, bodyOf_eq i s hc]
  simp [advance, emit, consume, hl]

/-- Outside the BUS family a legal instruction that emits anything leaves both lines released. -/
theorem exec_runs_closed {i : Instr} {s : State} (hbus : isBus i = false) (hi : i ≠ .tunWait) (hfreq : i ≠ .tunFreq)
    (hc : configOk s.cfg = true) (hw : i.wellFormed s.cfg.nGlyph = true) :
    exec i s = .next { s.registersAfter i with
      cp := s.cp + i.length, sdaDrv := false, sclDrv := false
      answers := s.answers.drop (samplesOf i), sampleNo := s.sampleNo + samplesOf i
      traceRev := (s.eventsOf i).reverse ++ s.traceRev } :=
  exec_runs hi hc hw (replay_eventsOf s hbus hfreq _)

/-! ### The driver state and the caches after a poll -/

theorem tstatePolled_eq (c : Config) (bank : Vector Word 6) (u : TState) :
    tstatePolled c bank u = if stcSet c bank = true ∧ (u = .seeking ∨ u = .tuning) then .idle else u := by
  simp [tstatePolled]

/-- A poll's writes to the cache depend on what it read through the two flags only (R19 (a)). -/
theorem bankPolled_congr {c : Config} {bank bank' : Vector Word 6} (w : Vector Word 6)
    (hstc : stcSet c bank = stcSet c bank') (hrdsr : rdsrSet c bank = rdsrSet c bank') :
    bankPolled c bank w = bankPolled c bank' w := by
  simp only [bankPolled, bankRetired, hstc, hrdsr]

/-! ### The obligations -/

/-- Settles O44. -/
theorem stepKeepsProgramAndConfig : Obligations.StepKeepsProgramAndConfig := by
  intro s t h
  rcases step_next h with rfl | ⟨i, hi⟩
  · exact ⟨rfl, rfl⟩
  · exact exec_next_program hi

/-- Settles O46: only the two polls have the read bank among their registers. -/
theorem readBankWrittenByPollsOnly : Obligations.ReadBankWrittenByPollsOnly := by
  intro i s t h
  obtain ⟨-, -, -, -, hrreg, -⟩ := exec_next_registers h
  rw [hrreg]
  cases i with
  | tunUpdate => exact (if_pos (.inl rfl)).symm
  | tunWait => exact (if_pos (.inr rfl)).symm
  | _ => exact (if_neg (by simp)).symm

/-- Settles O47: only the two operations have `RES` among their registers. -/
theorem resultWrittenByTwoOperations : Obligations.ResultWrittenByTwoOperations := by
  intro i s t h hread hfreq
  rw [(exec_next_registers h).1]
  cases i with
  | busRead k => exact absurd rfl (hread k)
  | tunFreq => exact absurd rfl hfreq
  | _ => rfl

/-- Settles O48, family by family. -/
theorem cursorAndTunerRegistersKeptByOtherFamilies : Obligations.CursorAndTunerRegistersKeptByOtherFamilies := by
  intro i s t h
  obtain ⟨-, hx, hy, hwreg, hrreg, hname, hcand, htstate⟩ := exec_next_registers h
  rw [hx, hy, hwreg, hrreg, hname, hcand, htstate]
  constructor
  · intro hdsp
    cases i with
    | dspInit | dspSetcursor | dspClearline | dspClearscreen | dspPrintchar | dspPrintstr | dspPrintline | dspPrintnum =>
      cases hdsp
    | _ => exact ⟨rfl, rfl⟩
  · intro hfamily
    cases i with
    | tunInit | tunSetvol | tunSetchan | tunSeek | tunWait | tunUpdate | tunFreq => simp [isBus, isDsp] at hfamily
    | _ => exact ⟨rfl, rfl, rfl, rfl, rfl⟩

/-- Settles O49: the events appended are the instruction's, whose samples are the answers it uses up. -/
theorem traceGrowsByWhatHappened : Obligations.TraceGrowsByWhatHappened := by
  intro s t h
  rcases step_next h with rfl | ⟨i, hi⟩
  · exact ⟨[], by simp [sampledBits, State.nextDrives, drivesFrom]⟩
  · obtain ⟨hanswers, hsamples⟩ := exec_next_answers hi
    have hused : t.sampleNo - s.sampleNo = samplesOf i := by omega
    rw [hused]
    exact ⟨s.eventsOf i, exec_next_trace hi, sampledBits_eventsOf s i, by omega, hanswers⟩

/-- Settles O50: whatever an instruction emits, the latches follow it. -/
theorem stepKeepsLatchesFollowTrace : Obligations.StepKeepsLatchesFollowTrace := by
  intro s t hs h
  rcases step_next h with rfl | ⟨i, hi⟩
  · exact hs
  · exact latchesFollowTrace_of_exec hs hi

/-- Settles O54. -/
theorem displayAndTunerLeaveBusIdle : Obligations.DisplayAndTunerLeaveBusIdle := by
  intro i s t hbus hidle h
  have hl := exec_next_latches h
  by_cases hfreq : i = .tunFreq
  · subst hfreq
    exact ⟨(congrArg Prod.fst hl).trans hidle.1, (congrArg Prod.snd hl).trans hidle.2⟩
  · rw [replay_eventsOf s hbus hfreq] at hl
    exact ⟨congrArg Prod.fst hl, congrArg Prod.snd hl⟩

/-- Settles O55, row by row. -/
theorem tunerStateTransitions : Obligations.TunerStateTransitions := by
  intro i s t h
  obtain ⟨-, -, -, -, hrreg, -, -, htstate⟩ := exec_next_registers h
  rw [htstate, hrreg]
  cases i with
  | tunUpdate | tunWait => simp [registersAfter_tunWait, registersAfter_tunUpdate, tstatePolled_eq]
  | _ => simp; rfl

/-- Settles O56: outside a poll the cache depends on no answer, in a poll on the two flags. -/
theorem cacheNeverCopiesDevice : Obligations.CacheNeverCopiesDevice := by
  intro i s t t' answers n h h' hstc hrdsr
  obtain ⟨-, -, -, hwreg, hrreg, -⟩ := exec_next_registers h
  obtain ⟨-, -, -, hwreg', hrreg', -⟩ := exec_next_registers h'
  rw [hrreg, hrreg'] at hstc hrdsr
  rw [hwreg, hwreg']
  cases i with
  | tunUpdate | tunWait => exact bankPolled_congr s.wreg hstc hrdsr
  | _ => rfl

end Sys2Proof.Machine

/-!
The named fields of the writable bank (spec/10_state.md R20, R31 (c)) and the invariants that speak of them. A register
write `AgreesOff` a mask when it changes only bits of that mask; every write of the tuner operations agrees off the
mask of a named field, so it keeps all other fields and every unnamed bit.
-/

namespace Sys2Proof.Machine

/-! ### Writes that stay inside a mask -/

/-- `v` and `w` have the same bits outside the mask `m`. -/
def AgreesOff (m v w : Word) : Prop := v &&& ~~~m = w &&& ~~~m

theorem AgreesOff.getLsbD_eq {m v w : Word} (h : AgreesOff m v w) {j : Nat} (hm : m.getLsbD j = false) :
    v.getLsbD j = w.getLsbD j := by
  by_cases hj : j < 16
  · have hbit := congrArg (·.getLsbD j) h
    simp only [BitVec.getLsbD_and, BitVec.getLsbD_not, hm, hj, decide_true, Bool.not_false, Bool.and_true] at hbit
    exact hbit
  · rw [BitVec.getLsbD_of_ge v j (by omega), BitVec.getLsbD_of_ge w j (by omega)]

theorem agreesOff_of_getLsbD {m v w : Word} (h : ∀ j, m.getLsbD j = false → v.getLsbD j = w.getLsbD j) :
    AgreesOff m v w := by
  apply BitVec.eq_of_getLsbD_eq
  intro j _
  simp only [BitVec.getLsbD_and, BitVec.getLsbD_not]
  cases hm : m.getLsbD j with
  | false => simp [h j hm]
  | true => simp

theorem agreesOff_or (m w : Word) : AgreesOff m (w ||| m) w :=
  agreesOff_of_getLsbD fun j hm => by simp [hm]

theorem agreesOff_clear (m w : Word) : AgreesOff m (w &&& ~~~m) w :=
  agreesOff_of_getLsbD fun j hm => by
    simp only [BitVec.getLsbD_and, BitVec.getLsbD_not, hm, Bool.not_false, Bool.and_true, Bool.and_eq_left_iff_imp,
      decide_eq_true_eq]
    exact BitVec.lt_of_getLsbD

theorem agreesOff_toggle (m w : Word) : AgreesOff m ((w &&& ~~~m) ||| m) w :=
  (agreesOff_or m _).trans (agreesOff_clear m w)

/-- A write that agrees off one mask keeps every mask disjoint from it. -/
theorem AgreesOff.and_eq {m m' v w : Word} (h : AgreesOff m v w) (hd : m &&& m' = 0) : v &&& m' = w &&& m' := by
  apply BitVec.eq_of_getLsbD_eq
  intro j _
  simp only [BitVec.getLsbD_and]
  cases hm' : m'.getLsbD j with
  | false => simp
  | true =>
    have hbit := congrArg (·.getLsbD j) hd
    rw [h.getLsbD_eq (by simpa [hm'] using hbit)]

theorem AgreesOff.mono {m n v w : Word} (h : AgreesOff m v w) (hmn : ∀ j, m.getLsbD j = true → n.getLsbD j = true) :
    AgreesOff n v w :=
  agreesOff_of_getLsbD fun j hn => h.getLsbD_eq (by
    cases hm : m.getLsbD j with
    | false => rfl
    | true => exact absurd (hmn j hm) (by simp [hn]))

/-! ### Fields of several bits: the merges of R146 and R147 -/

/-- The mask of a field of `k` bits shifted left by `sh`. -/
def fieldMask (k sh : Nat) : Word := BitVec.ofNat 16 (2 ^ k - 1) <<< sh

/-- A register with the field set to `f`. -/
def mergeField (k sh : Nat) (w f : Word) : Word := (w &&& ~~~(fieldMask k sh)) ||| (f <<< sh)

/-- The value of the field. -/
def readField (k sh : Nat) (w : Word) : Word := (w >>> sh) &&& BitVec.ofNat 16 (2 ^ k - 1)

theorem mergeVol_eq (c : Config) (w : Word) (level : Byte) :
    mergeVol c w level = mergeField 4 c.volShift w (level.zeroExtend 16) := rfl

theorem mergeChan_eq (c : Config) (w chan : Word) : mergeChan c w chan = mergeField 10 c.chanShift w chan ||| c.mTune := rfl

theorem getLsbD_fieldMask (k sh j : Nat) :
    (fieldMask k sh).getLsbD j = (decide (j < 16) && decide (sh ≤ j) && decide (j - sh < k)) := by
  simp only [fieldMask, BitVec.getLsbD_shiftLeft, BitVec.getLsbD_ofNat, Nat.testBit_two_pow_sub_one, ← decide_not,
    Nat.not_lt]
  by_cases hj : j < 16
  · rw [decide_eq_true (show j - sh < 16 by omega), Bool.true_and]
  · simp [hj]

theorem getLsbD_readField (k sh j : Nat) (w : Word) (h : k ≤ 16) :
    (readField k sh w).getLsbD j = (w.getLsbD (sh + j) && decide (j < k)) := by
  have hlt : j < k → j < 16 := by omega
  by_cases hj : j < k
  · simp [readField, BitVec.getLsbD_ofNat, Nat.testBit_two_pow_sub_one, hj, hlt hj]
  · simp [readField, BitVec.getLsbD_ofNat, Nat.testBit_two_pow_sub_one, hj]

/-- A value below `2 ^ k` has no bit from `k` on. -/
theorem getLsbD_eq_false_of_lt {k j : Nat} {v : Word} (h : v.toNat < 2 ^ k) (hj : k ≤ j) : v.getLsbD j = false :=
  Nat.testBit_lt_two_pow (lt_of_lt_of_le h (Nat.pow_le_pow_right (by decide) hj))

theorem agreesOff_mergeField {k sh : Nat} {w f : Word} (hf : f.toNat < 2 ^ k) :
    AgreesOff (fieldMask k sh) (mergeField k sh w f) w :=
  agreesOff_of_getLsbD fun j hm => by
    have hfalse : (f <<< sh).getLsbD j = false := by
      rw [getLsbD_fieldMask] at hm
      rw [BitVec.getLsbD_shiftLeft]
      by_cases hk : k ≤ j - sh
      · simp [getLsbD_eq_false_of_lt hf hk]
      · simp only [Nat.not_le.mp hk, decide_true, Bool.and_true] at hm
        simp only [← decide_not, Nat.not_lt, hm, Bool.false_and]
    rw [mergeField, BitVec.getLsbD_or, hfalse, Bool.or_false]
    exact (agreesOff_clear _ w).getLsbD_eq hm

/-- The field reads back as it was set (R149). -/
theorem readField_mergeField {k sh : Nat} {w f : Word} (hf : f.toNat < 2 ^ k) (hk : sh + k ≤ 16) :
    readField k sh (mergeField k sh w f) = f := by
  apply BitVec.eq_of_getLsbD_eq
  intro j hj
  rw [getLsbD_readField _ _ _ _ (by omega)]
  by_cases hjk : j < k
  · have hmask : (fieldMask k sh).getLsbD (sh + j) = true := by
      rw [getLsbD_fieldMask]
      simp only [Bool.and_eq_true, decide_eq_true_eq]
      omega
    have hlt : sh + j < 16 := by omega
    rw [mergeField, BitVec.getLsbD_or, BitVec.getLsbD_and, BitVec.getLsbD_not, hmask, BitVec.getLsbD_shiftLeft]
    simp only [hjk, hlt, Nat.add_sub_cancel_left, Nat.not_lt.mpr (Nat.le_add_right sh j), decide_true, decide_false,
      Bool.not_true, Bool.not_false, Bool.and_false, Bool.false_or, Bool.true_and, Bool.and_true]
  · simp [hjk, getLsbD_eq_false_of_lt hf (Nat.not_lt.mp hjk)]

/-- The value of a field depends on the bits of its mask only. -/
theorem readField_congr {k sh : Nat} {v w : Word} (hk : sh + k ≤ 16)
    (h : v &&& fieldMask k sh = w &&& fieldMask k sh) : readField k sh v = readField k sh w := by
  apply BitVec.eq_of_getLsbD_eq
  intro j hj
  rw [getLsbD_readField _ _ _ _ (by omega), getLsbD_readField _ _ _ _ (by omega)]
  by_cases hjk : j < k
  · have hmask : (fieldMask k sh).getLsbD (sh + j) = true := by
      rw [getLsbD_fieldMask]
      simp only [Bool.and_eq_true, decide_eq_true_eq]
      omega
    have hbit := congrArg (·.getLsbD (sh + j)) h
    simp only [BitVec.getLsbD_and, hmask, Bool.and_true] at hbit
    rw [hbit]
  · simp [hjk]

theorem toNat_level (level : Byte) : (level.zeroExtend 16).toNat = level.toNat := by
  rw [BitVec.toNat_setWidth, Nat.mod_eq_of_lt (Nat.lt_trans level.isLt (by decide))]

theorem agreesOff_mergeVol (c : Config) (w : Word) {level : Byte} (h : level.toNat ≤ 15) :
    AgreesOff (volMask c) (mergeVol c w level) w :=
  agreesOff_mergeField (k := 4) (by rw [toNat_level]; omega)

theorem agreesOff_mergeChan (c : Config) (w : Word) {chan : Word} (h : chan.toNat ≤ 1023) :
    AgreesOff (chanMask c ||| c.mTune) (mergeChan c w chan) w := by
  have hfield : AgreesOff (chanMask c) (mergeField 10 c.chanShift w chan) w := agreesOff_mergeField (by omega)
  rw [mergeChan_eq]
  exact ((agreesOff_or c.mTune _).mono (by simp +contextual)).trans (hfield.mono (by simp +contextual))

/-! ### The named fields of a legal configuration (R20, R176) -/

section
variable {c : Config} (h : configOk c = true)
include h

theorem configOk_rReset : c.rReset < 6 := (configOk_indices h).1

theorem configOk_rSeek : c.rSeek < 6 := by
  obtain ⟨-, hseek, -⟩ := configOk_indices h
  exact hseek

theorem configOk_rRdsreq : c.rRdsreq < 6 := by
  obtain ⟨-, -, hrds, -⟩ := configOk_indices h
  exact hrds

theorem configOk_rChan : c.rChan < 6 := by
  obtain ⟨-, -, -, hchan, -⟩ := configOk_indices h
  exact hchan

theorem configOk_rVol : c.rVol < 6 := by
  obtain ⟨-, -, -, -, hvol, -⟩ := configOk_indices h
  exact hvol

end

theorem oneBit_ne_zero {m : Word} (h : oneBit m = true) : m ≠ 0 := by
  rintro rfl
  exact absurd h (by decide)

theorem configOk_flags_ne_zero {c : Config} (h : configOk c = true) : c.mSeek ≠ 0 ∧ c.mTune ≠ 0 := by
  obtain ⟨-, -, -, hm, -⟩ := configOk_parts h
  simp only [masksOk, List.all_cons, Bool.and_eq_true] at hm
  obtain ⟨-, hseek, -, htune, -⟩ := hm
  exact ⟨oneBit_ne_zero hseek, oneBit_ne_zero htune⟩

theorem configOk_startVolume {c : Config} (h : configOk c = true) : c.startVolume.toNat ≤ 15 := by
  obtain ⟨-, -, -, -, -, -, hv⟩ := configOk_parts h
  simp only [valuesOk, Bool.and_eq_true, decide_eq_true_eq] at hv
  exact hv.2

/-- The field pairs whose disjointness the invariants rest on. -/
theorem configOk_disjoint {c : Config} (h : configOk c = true) :
    (c.rSeek = c.rRdsreq → c.mSeek &&& c.mRdsreq = 0) ∧ (c.rSeek = c.rVol → c.mSeek &&& volMask c = 0) ∧
    (c.rRdsreq = c.rChan → c.mRdsreq &&& c.mTune = 0) ∧ chanMask c &&& c.mTune = 0 ∧
    (c.rChan = c.rVol → c.mTune &&& volMask c = 0) := by
  obtain ⟨-, -, -, -, hw, -⟩ := configOk_parts h
  have hp := fieldsDisjoint_pairwise hw
  simp only [writableFields, List.pairwise_cons, List.forall_mem_cons, List.not_mem_nil, false_imp_iff, implies_true,
    forall_true_left, and_true] at hp
  obtain ⟨-, ⟨hseekRds, -, -, hseekVol⟩, ⟨-, hrdsTune, -⟩, ⟨hchanTune, -⟩, htuneVol, -⟩ := hp
  exact ⟨hseekRds, hseekVol, hrdsTune, hchanTune, htuneVol⟩

/-- A register write that agrees off one field's mask keeps every other field. -/
theorem bankSet_keeps_field {w : Vector Word 6} {r r' : Nat} {m m' v : Word} (hr : r < 6)
    (hv : AgreesOff m v (bankGet w r)) (hd : r = r' → m &&& m' = 0) :
    bankGet (bankSet w r v) r' &&& m' = bankGet w r' &&& m' := by
  by_cases hrr : r = r'
  · subst hrr
    rw [bankGet_bankSet_self _ _ _ hr]
    exact hv.and_eq (hd rfl)
  · rw [bankGet_bankSet_of_ne _ _ _ _ hrr]

/-! ### Named and unnamed bits (R31 (c)) -/

theorem getLsbD_foldl_named (l : List (Nat × Word)) (i j : Nat) (acc : Word) :
    (l.foldl (fun m f => if f.1 = i then m ||| f.2 else m) acc).getLsbD j =
      (acc.getLsbD j || l.any (fun f => decide (f.1 = i) && f.2.getLsbD j)) := by
  induction l generalizing acc with
  | nil => simp
  | cons f l ih =>
    rw [List.foldl_cons, ih, List.any_cons]
    by_cases hf : f.1 = i <;> simp [hf, Bool.or_assoc]

/-- The mask of a named field lies inside the named bits of its register. -/
theorem getLsbD_namedBits {c : Config} {f : Nat × Word} (hf : f ∈ writableFields c) {j : Nat}
    (hj : f.2.getLsbD j = true) : (namedBits c f.1).getLsbD j = true := by
  rw [namedBits, getLsbD_foldl_named, List.any_eq_true.mpr ⟨f, hf, by simp [hj]⟩, Bool.or_true]

/-- Two banks have the same unnamed bits. -/
def UnnamedAgree (c : Config) (w w' : Vector Word 6) : Prop :=
  ∀ i, i < 6 → AgreesOff (namedBits c i) (bankGet w' i) (bankGet w i)

theorem UnnamedAgree.refl (c : Config) (w : Vector Word 6) : UnnamedAgree c w w := fun _ _ => rfl

theorem UnnamedAgree.trans {c : Config} {w w' w'' : Vector Word 6} (h : UnnamedAgree c w w')
    (h' : UnnamedAgree c w' w'') : UnnamedAgree c w w'' := fun i hi => (h' i hi).trans (h i hi)

theorem unnamedAgree_bankSet {c : Config} {w : Vector Word 6} {r : Nat} {v : Word} (hr : r < 6)
    (hv : AgreesOff (namedBits c r) v (bankGet w r)) : UnnamedAgree c w (bankSet w r v) := by
  intro i _
  by_cases hri : r = i
  · subst hri
    rwa [bankGet_bankSet_self _ _ _ hr]
  · rw [bankGet_bankSet_of_ne _ _ _ _ hri]
    rfl

/-- A write inside one named field keeps the unnamed bits. -/
theorem unnamedAgree_field {c : Config} {w : Vector Word 6} {r : Nat} {m v : Word} (hr : r < 6)
    (hf : (r, m) ∈ writableFields c) (hv : AgreesOff m v (bankGet w r)) : UnnamedAgree c w (bankSet w r v) :=
  unnamedAgree_bankSet hr (hv.mono fun _ hj => getLsbD_namedBits hf hj)

section
variable {c : Config} (hc : configOk c = true) (w : Vector Word 6)
include hc

theorem unnamedAgree_bankResetOn : UnnamedAgree c w (bankResetOn c w) :=
  unnamedAgree_field (configOk_rReset hc) (by simp [writableFields]) (agreesOff_or _ _)

theorem unnamedAgree_bankResetOff : UnnamedAgree c w (bankResetOff c w) :=
  unnamedAgree_field (configOk_rReset hc) (by simp [writableFields]) (agreesOff_clear _ _)

theorem unnamedAgree_bankSeeking : UnnamedAgree c w (bankSeeking c w) :=
  unnamedAgree_field (configOk_rSeek hc) (by simp [writableFields]) (agreesOff_or _ _)

theorem unnamedAgree_bankSeekOff : UnnamedAgree c w (bankSeekOff c w) :=
  unnamedAgree_field (configOk_rSeek hc) (by simp [writableFields]) (agreesOff_clear _ _)

theorem unnamedAgree_bankTuneOff : UnnamedAgree c w (bankTuneOff c w) :=
  unnamedAgree_field (m := c.mTune) (configOk_rChan hc) (by simp [writableFields]) (agreesOff_clear _ _)

theorem unnamedAgree_bankWithVol {level : Byte} (hl : level.toNat ≤ 15) : UnnamedAgree c w (bankWithVol c level w) :=
  unnamedAgree_field (configOk_rVol hc) (by simp [writableFields]) (agreesOff_mergeVol c _ hl)

theorem unnamedAgree_bankWithChan {chan : Word} (hch : chan.toNat ≤ 1023) :
    UnnamedAgree c w (bankWithChan c chan w) := by
  refine unnamedAgree_bankSet (configOk_rChan hc) ((agreesOff_mergeChan c _ hch).mono fun j hj => ?_)
  rw [BitVec.getLsbD_or, Bool.or_eq_true] at hj
  rcases hj with hj | hj
  · exact getLsbD_namedBits (f := (c.rChan, chanMask c)) (by simp [writableFields]) hj
  · exact getLsbD_namedBits (f := (c.rChan, c.mTune)) (by simp [writableFields]) hj

theorem unnamedAgree_bankRetired (bank : Vector Word 6) : UnnamedAgree c w (bankRetired c bank w) := by
  unfold bankRetired
  split
  · exact (unnamedAgree_bankTuneOff hc w).trans (unnamedAgree_bankSeekOff hc _)
  · exact .refl c w

theorem unnamedAgree_bankPolled (bank : Vector Word 6) : UnnamedAgree c w (bankPolled c bank w) := by
  have hretired := unnamedAgree_bankRetired hc w bank
  unfold bankPolled
  split
  · exact hretired.trans <| unnamedAgree_field (configOk_rRdsreq hc) (by simp [writableFields])
      (agreesOff_toggle c.mRdsreq _)
  · exact hretired

end

end Sys2Proof.Machine

/-!
Radio-data decoding (spec/42_tuner.md R158) slot by slot, and what a poll does to the visible name and the candidates.
-/

namespace Sys2Proof.Machine

/-! ### One decode cycle, slot by slot -/

/-- The character that the block word `w` carries for slot `k`: the high byte for even slots (R158, log 26). -/
def groupChar (w : Word) (k : Nat) : Byte := if k % 2 = 0 then hiByte w else loByte w

theorem groupChar_even (w : Word) (off : Nat) : groupChar w (2 * off) = hiByte w := by
  simp [groupChar]

theorem groupChar_odd (w : Word) (off : Nat) : groupChar w (2 * off + 1) = loByte w := by
  simp [groupChar, Nat.add_mod]

/-- The two slots of an offset, both debounced: each by itself. -/
theorem debounceSlots_slot (bufs : Vector Byte 9 × Vector Byte 9) (w : Word) {off : Nat} (hoff : off < 4) (k : Nat) :
    let after := debounceSlot (debounceSlot bufs (2 * off) (hiByte w)) (2 * off + 1) (loByte w)
    if k / 2 = off then
      slotGet after.2 k = groupChar w k ∧
      slotGet after.1 k = (if slotGet bufs.2 k = groupChar w k then groupChar w k else slotGet bufs.1 k)
    else slotGet after.2 k = slotGet bufs.2 k ∧ slotGet after.1 k = slotGet bufs.1 k := by
  have heven := debounceSlot_other bufs (2 * off) k (hiByte w) (by omega)
  have hodd := debounceSlot_other (debounceSlot bufs (2 * off) (hiByte w)) (2 * off + 1) k (loByte w) (by omega)
  intro after
  simp only [after]
  split
  · obtain rfl | rfl : k = 2 * off ∨ k = 2 * off + 1 := by omega
    · obtain ⟨hname, hcand⟩ := hodd (by omega)
      rw [hname, hcand, groupChar_even]
      exact debounceSlot_self bufs (2 * off) (hiByte w) (by omega)
    · obtain ⟨hname, hcand⟩ := heven (by omega)
      rw [groupChar_odd, ← hname, ← hcand]
      exact debounceSlot_self _ (2 * off + 1) (loByte w) (by omega)
  · obtain ⟨hname, hcand⟩ := hodd (by omega)
    obtain ⟨hname', hcand'⟩ := heven (by omega)
    exact ⟨hcand.trans hcand', hname.trans hname'⟩

theorem toNat_offset (b : Word) : (b.extractLsb' 0 2).toNat = b.toNat % 4 := by
  simp [BitVec.extractLsb'_toNat]

/-- Slot `k` belongs to the matching group in the read bank. -/
def SlotInGroup (c : Config) (bank : Vector Word 6) (k : Nat) : Prop :=
  psGroup c (bankGet bank c.rBlkb) = true ∧ k / 2 = (bankGet bank c.rBlkb).toNat % 4

theorem decodeGroup_slot (c : Config) (bank : Vector Word 6) (bufs : Vector Byte 9 × Vector Byte 9) (k : Nat) :
    (SlotInGroup c bank k →
      slotGet (decodeGroup c bank bufs).2 k = groupChar (bankGet bank c.rBlkd) k ∧
      slotGet (decodeGroup c bank bufs).1 k = (if slotGet bufs.2 k = groupChar (bankGet bank c.rBlkd) k then
        groupChar (bankGet bank c.rBlkd) k else slotGet bufs.1 k)) ∧
    (¬ SlotInGroup c bank k → slotGet (decodeGroup c bank bufs).2 k = slotGet bufs.2 k ∧
      slotGet (decodeGroup c bank bufs).1 k = slotGet bufs.1 k) := by
  have hslots := debounceSlots_slot bufs (bankGet bank c.rBlkd) (Nat.mod_lt (bankGet bank c.rBlkb).toNat (by decide : 4 > 0)) k
  cases hps : psGroup c (bankGet bank c.rBlkb) with
  | false => simp [SlotInGroup, decodeGroup, hps]
  | true =>
    simp only [SlotInGroup, decodeGroup, hps, if_true, true_and, toNat_offset]
    constructor
    · intro hk
      rwa [if_pos hk] at hslots
    · intro hk
      rwa [if_neg hk] at hslots

/-- The slots that a poll's decode reaches: those of the group, in a poll that reads `RDSR` set. -/
theorem bufsPolled_slot (c : Config) (bank : Vector Word 6) (bufs : Vector Byte 9 × Vector Byte 9) (k : Nat) :
    (rdsrSet c bank = true ∧ SlotInGroup c bank k →
      slotGet (bufsPolled c bank bufs).2 k = groupChar (bankGet bank c.rBlkd) k ∧
      slotGet (bufsPolled c bank bufs).1 k = (if slotGet bufs.2 k = groupChar (bankGet bank c.rBlkd) k then
        groupChar (bankGet bank c.rBlkd) k else slotGet bufs.1 k)) ∧
    (¬ (rdsrSet c bank = true ∧ SlotInGroup c bank k) → slotGet (bufsPolled c bank bufs).2 k = slotGet bufs.2 k ∧
      slotGet (bufsPolled c bank bufs).1 k = slotGet bufs.1 k) := by
  cases hr : rdsrSet c bank with
  | false => simp [bufsPolled, hr]
  | true =>
    simp only [bufsPolled, hr, if_true, true_and]
    exact decodeGroup_slot c bank bufs k

/-- No group has slot 8, the terminator's. -/
theorem not_slotInGroup_terminator (c : Config) (bank : Vector Word 6) : ¬ SlotInGroup c bank 8 := by
  rintro ⟨-, h⟩
  omega

theorem bufsPolled_terminator (c : Config) (bank : Vector Word 6) (bufs : Vector Byte 9 × Vector Byte 9) :
    slotGet (bufsPolled c bank bufs).2 8 = slotGet bufs.2 8 ∧ slotGet (bufsPolled c bank bufs).1 8 = slotGet bufs.1 8 :=
  (bufsPolled_slot c bank bufs 8).2 fun h => not_slotInGroup_terminator c bank h.2

/-! ### The next state of a poll -/

/-- A legal `TUN.UPDATE` answers next with its events, answers and registers. -/
theorem exec_update {s : State} (hc : configOk s.cfg = true) : ∃ t, exec .tunUpdate s = .next t ∧
    t.cfg = s.cfg ∧ t.cand = (bufsPolled s.cfg s.nextBank (s.name, s.cand)).2 ∧
    t.name = (bufsPolled s.cfg s.nextBank (s.name, s.cand)).1 ∧ t.rreg = s.nextBank ∧
    t.nextBank = bankOfPoll s 1 := by
  obtain ⟨t, h⟩ := exec_answers (i := .tunUpdate) hc rfl
  obtain ⟨-, -, -, -, hrreg, hname, hcand, -⟩ := exec_next_registers h
  obtain ⟨hanswers, hsamples⟩ := exec_next_answers h
  refine ⟨t, h, (exec_next_program h).1, hcand, hname, hrreg, ?_⟩
  rw [State.nextBank, State.nextDrives, hanswers, hsamples]
  rfl

theorem nextBank_eq_bankOfPoll (s : State) : s.nextBank = bankOfPoll s 0 := rfl

/-! ### The obligations -/

/-- Settles O37: the two slots of the group are debounced, the others are not reached. -/
theorem updateDebouncesTwoSlots : Obligations.UpdateDebouncesTwoSlots := by
  intro s hc hr
  obtain ⟨t, h, -, hcand, hname, hrreg, -⟩ := exec_update hc
  refine ⟨t, h, ?_⟩
  intro b w char k _
  have hslot := bufsPolled_slot s.cfg s.nextBank (s.name, s.cand) k
  rw [hcand, hname]
  simp only [b, w, char, hrreg]
  split
  · rename_i hk
    exact hslot.1 ⟨hr, by simpa [SlotInGroup, psGroup] using hk⟩
  · rename_i hk
    exact hslot.2 fun hin => hk (by simpa [SlotInGroup, psGroup] using hin.2)

/-- Settles O38: the first poll leaves both characters as candidates, so the second promotes them. -/
theorem sameGroupTwicePromotesBoth : Obligations.SameGroupTwicePromotesBoth := by
  intro s hc b1 b2 hr1 hr2 hblkb hblkd hps
  obtain ⟨t, ht, htcfg, htcand, -, -, htbank⟩ := exec_update hc
  obtain ⟨u, hu, -, -, huname, -⟩ := exec_update (s := t) (by rwa [htcfg])
  rw [htcfg, htbank] at huname
  have hpromoted : ∀ k, k / 2 = (bankGet b1 s.cfg.rBlkb).toNat % 4 →
      slotGet u.name k = groupChar (bankGet b1 s.cfg.rBlkd) k := by
    intro k hk
    have hcand := ((bufsPolled_slot s.cfg b1 (s.name, s.cand) k).1 ⟨hr1, hps, hk⟩).1
    have hname := ((bufsPolled_slot s.cfg b2 (t.name, t.cand) k).1 ⟨hr2, by rwa [← hblkb], by rwa [← hblkb]⟩).2
    rw [huname, hname, htcand, ← hblkd]
    exact if_pos hcand
  refine ⟨t, u, ht, hu, ?_, ?_⟩
  · rw [hpromoted _ (by omega), groupChar_even]
  · rw [hpromoted _ (by omega), groupChar_odd]

/-- A poll that repeats no candidate leaves the visible name. -/
theorem bufsPolled_name_of_ne {c : Config} {bank : Vector Word 6} {bufs : Vector Byte 9 × Vector Byte 9}
    (h : ∀ k, SlotInGroup c bank k → slotGet bufs.2 k ≠ groupChar (bankGet bank c.rBlkd) k) (k : Nat) :
    slotGet (bufsPolled c bank bufs).1 k = slotGet bufs.1 k := by
  have hslot := bufsPolled_slot c bank bufs k
  by_cases hk : rdsrSet c bank = true ∧ SlotInGroup c bank k
  · rw [(hslot.1 hk).2, if_neg (h k hk.2)]
  · exact (hslot.2 hk).2

theorem slots_ext {a b : Vector Byte 9} (h : ∀ k, slotGet a k = slotGet b k) : a = b := by
  apply Vector.ext
  intro k hk
  simpa [slotGet, hk] using h k

/-- The characters of two block words differ at both slots of an offset when both bytes differ. -/
theorem groupChar_ne {w : Word} {x : Nat → Byte} {off k : Nat} (hk : k / 2 = off) (hhi : hiByte w ≠ x (2 * off))
    (hlo : loByte w ≠ x (2 * off + 1)) : x k ≠ groupChar w k := by
  obtain rfl | rfl : k = 2 * off ∨ k = 2 * off + 1 := by omega
  · rw [groupChar_even]; exact hhi.symm
  · rw [groupChar_odd]; exact hlo.symm

/-- Settles O39: no slot of either group held its character as candidate, so neither poll promotes. -/
theorem differentGroupsPromoteNeither : Obligations.DifferentGroupsPromoteNeither := by
  intro s hc b1 b2 off hr1 _ hoff hhi hlo hps hhi2 hlo2
  obtain ⟨t, ht, htcfg, htcand, htname, -, htbank⟩ := exec_update hc
  obtain ⟨u, hu, -, -, huname, -⟩ := exec_update (s := t) (by rwa [htcfg])
  rw [htcfg, htbank] at huname
  refine ⟨t, u, ht, hu, slots_ext fun k => ?_⟩
  have hfirst : slotGet t.name k = slotGet s.name k := by
    rw [htname]
    exact bufsPolled_name_of_ne (fun k hk => groupChar_ne (x := slotGet s.cand) hk.2 hhi hlo) k
  have hcand : ∀ k, k / 2 = off → slotGet t.cand k = groupChar (bankGet b1 s.cfg.rBlkd) k := by
    intro k hk
    rw [htcand]
    exact ((bufsPolled_slot s.cfg b1 (s.name, s.cand) k).1 ⟨hr1, hps, hk⟩).1
  rw [huname, ← hfirst]
  refine bufsPolled_name_of_ne (fun k hk => ?_) k
  have hkoff : k / 2 = off := hk.2.trans hoff
  show slotGet t.cand k ≠ _
  rw [hcand k hkoff]
  exact groupChar_ne (x := groupChar (bankGet b1 s.cfg.rBlkd)) hkoff (by rwa [groupChar_even]) (by rwa [groupChar_odd])

/-- Where a poll's characters come from: a name slot is kept or takes its candidate, a candidate is kept or takes the
character of the group (R158). -/
theorem bufsPolled_sources (c : Config) (bank : Vector Word 6) (bufs : Vector Byte 9 × Vector Byte 9) (k : Nat) :
    (slotGet (bufsPolled c bank bufs).1 k = slotGet bufs.1 k ∨ slotGet (bufsPolled c bank bufs).1 k = slotGet bufs.2 k) ∧
    (slotGet (bufsPolled c bank bufs).2 k = slotGet bufs.2 k ∨ rdsrSet c bank = true ∧ SlotInGroup c bank k ∧
      slotGet (bufsPolled c bank bufs).2 k = groupChar (bankGet bank c.rBlkd) k) := by
  have hslot := bufsPolled_slot c bank bufs k
  by_cases hk : rdsrSet c bank = true ∧ SlotInGroup c bank k
  · obtain ⟨hcand, hname⟩ := hslot.1 hk
    refine ⟨?_, .inr ⟨hk.1, hk.2, hcand⟩⟩
    rw [hname]
    split
    · rename_i hrepeat; exact .inr hrepeat.symm
    · exact .inl rfl
  · obtain ⟨hcand, hname⟩ := hslot.2 hk
    exact ⟨.inl hname, .inl hcand⟩

theorem registersAfter_poll_of_or {i : Instr} (h : i = .tunUpdate ∨ i = .tunWait) (s : State) :
    s.registersAfter i = s.registersAfter .tunUpdate := by
  rcases h with rfl | rfl <;> rfl

theorem registersAfter_cand_of_not_poll {i : Instr} (h : ¬ (i = .tunUpdate ∨ i = .tunWait)) (s : State) :
    (s.registersAfter i).cand = s.cand := by
  cases i with
  | tunUpdate | tunWait => exact absurd h (by simp)
  | _ => rfl

/-- Settles O45: outside a poll the candidates are no register of the instruction; in a poll, slot by slot. -/
theorem candidatesOutliveRetuning : Obligations.CandidatesOutliveRetuning := by
  intro i s t h
  obtain ⟨-, -, -, -, hrreg, hname, hcand, -⟩ := exec_next_registers h
  by_cases hpoll : i = .tunUpdate ∨ i = .tunWait
  · rw [registersAfter_poll_of_or hpoll, registersAfter_tunUpdate] at hrreg hname hcand
    rw [hrreg, hname, hcand]
    refine ⟨fun hu hw => absurd hpoll (by simp [hu, hw]), (bufsPolled_terminator ..).1, fun _ k => ?_⟩
    obtain ⟨hnameSource, hcandSource⟩ := bufsPolled_sources s.cfg s.nextBank (s.name, s.cand) k
    refine ⟨hnameSource, hcandSource.imp_right ?_⟩
    rintro ⟨hr, ⟨hps, hoff⟩, hchar⟩
    exact ⟨hr, by simpa [psGroup] using hps, hoff, hchar⟩
  · rw [registersAfter_cand_of_not_poll hpoll] at hcand
    exact ⟨fun _ _ => hcand, by rw [hcand], fun hp => absurd hp hpoll⟩

end Sys2Proof.Machine

/-!
Proofs for the TUN family (spec/42_tuner.md R145 to R161) and the invariants of the tuner registers (spec/10_state.md
R31; R161's mirror), from the whole next state (`exec_runs_closed`) and the fields of the writable bank.
-/

namespace Sys2Proof.Machine

/-! ### Whole next states -/

theorem blankSlots_blank (name : Vector Byte 9) : ∀ k, k < 8 → slotGet (blankSlots name) k = 0x20#8 := fun k hk => by
  rw [slotGet_blankSlots, if_pos hk]
  rfl

theorem blankSlots_terminator (name : Vector Byte 9) : slotGet (blankSlots name) 8 = slotGet name 8 := by
  rw [slotGet_blankSlots, if_neg (by decide)]

/-- Settles O31. -/
theorem tunInitPulsesReset : Obligations.TunInitPulsesReset := fun s hc =>
  ⟨blankSlots s.name, blankSlots_blank _, blankSlots_terminator _, exec_runs_closed (i := .tunInit) rfl nofun nofun hc rfl⟩

/-- Settles O32. -/
theorem tunSetvolWritesVolume : Obligations.TunSetvolWritesVolume := fun _ level hc hl =>
  exec_runs_closed (i := .tunSetvol level) rfl nofun nofun hc (decide_eq_true hl)

/-- Settles O33. -/
theorem tunSetchanWritesChannel : Obligations.TunSetchanWritesChannel := fun s chan hc hch =>
  ⟨blankSlots s.name, blankSlots_blank _, blankSlots_terminator _,
    exec_runs_closed (i := .tunSetchan chan) rfl nofun nofun hc (decide_eq_true hch)⟩

/-- Settles O34. -/
theorem tunSeekSetsFlag : Obligations.TunSeekSetsFlag := fun s hc =>
  ⟨blankSlots s.name, blankSlots_blank _, blankSlots_terminator _, exec_runs_closed (i := .tunSeek) rfl nofun nofun hc rfl⟩

/-- Settles O36: the bank read, then both parts of the poll. -/
theorem tunUpdatePollsAndRetires : Obligations.TunUpdatePollsAndRetires := fun _ hc =>
  exec_runs_closed (i := .tunUpdate) rfl nofun nofun hc rfl

/-! ### The two merged fields (R149) -/

theorem readField_mergeVol (c : Config) (w : Word) {level : Byte} (hs : c.volShift ≤ 12) (hl : level.toNat ≤ 15) :
    (readField 4 c.volShift (mergeVol c w level)).toNat = level.toNat := by
  rw [mergeVol_eq, readField_mergeField (by rw [toNat_level]; omega) (by omega), toNat_level]

theorem readField_mergeChan (c : Config) (w : Word) {chan : Word} (hd : chanMask c &&& c.mTune = 0)
    (hs : c.chanShift ≤ 6) (hch : chan.toNat ≤ 1023) : readField 10 c.chanShift (mergeChan c w chan) = chan := by
  have hflag : mergeChan c w chan &&& fieldMask 10 c.chanShift =
      mergeField 10 c.chanShift w chan &&& fieldMask 10 c.chanShift :=
    (agreesOff_or c.mTune _).and_eq ((BitVec.and_comm ..).trans hd)
  rw [readField_congr (by omega) hflag, readField_mergeField (by omega) (by omega)]

theorem or_and_self_right (w m : Word) : (w ||| m) &&& m = m := by
  apply BitVec.eq_of_getLsbD_eq
  intro j _
  simp only [BitVec.getLsbD_and, BitVec.getLsbD_or]
  cases m.getLsbD j <;> simp

theorem mergeChan_and_tune (c : Config) (w chan : Word) : mergeChan c w chan &&& c.mTune = c.mTune :=
  or_and_self_right ..

/-- A command that writes one cache register leaves the written value there and every other register as it was. -/
theorem wregAt_of_bankSet {i : Instr} {s t : State} {r : Nat} {v : Word} (h : exec i s = .next t) (hr : r < 6)
    (hwreg : (s.registersAfter i).wreg = bankSet s.wreg r v) :
    wregAt t r = v ∧ ∀ j, j ≠ r → wregAt t j = wregAt s j := by
  obtain ⟨-, -, -, htwreg, -⟩ := exec_next_registers h
  simp only [wregAt, htwreg, hwreg]
  exact ⟨bankGet_bankSet_self _ _ _ hr, fun j hj => bankGet_bankSet_of_ne _ _ _ _ hj.symm⟩

/-- Settles O35: each merge agrees off its field's mask, and writes one register. -/
theorem mergesKeepOtherBits : Obligations.MergesKeepOtherBits := by
  intro s level chan hc hl hch
  obtain ⟨hschan, -, hsvol⟩ := configOk_shifts hc
  obtain ⟨-, -, -, hdisjoint, -⟩ := configOk_disjoint hc
  constructor
  · obtain ⟨t, h⟩ := exec_answers (i := .tunSetvol level) hc (decide_eq_true hl)
    obtain ⟨hself, hother⟩ := wregAt_of_bankSet h (configOk_rVol hc) rfl
    exact ⟨t, h, by rw [hself]; exact readField_mergeVol s.cfg _ hsvol hl,
      fun j _ hj => by rw [hself]; exact (agreesOff_mergeVol s.cfg _ hl).getLsbD_eq hj, hother⟩
  · obtain ⟨t, h⟩ := exec_answers (i := .tunSetchan chan) hc (decide_eq_true hch)
    obtain ⟨hself, hother⟩ := wregAt_of_bankSet h (configOk_rChan hc) rfl
    exact ⟨t, h, by rw [hself]; exact congrArg BitVec.toNat (readField_mergeChan s.cfg _ hdisjoint hschan hch),
      by rw [hself, mergeChan_and_tune],
      fun j _ hj => by rw [hself]; exact (agreesOff_mergeChan s.cfg _ hch).getLsbD_eq hj, hother⟩

/-! ### The frequency (R160) -/

theorem toNat_chanRd (c : Config) (rreg : Vector Word 6) :
    (chanRd c rreg).toNat = (bankGet rreg c.rStatus).toNat / 2 ^ c.chanRdShift % 1024 := by
  rw [chanRd, BitVec.toNat_and, BitVec.toNat_ushiftRight, Nat.shiftRight_eq_div_pow]
  exact Nat.and_two_pow_sub_one_eq_mod _ 10

/-- For a 10-bit channel the 16-bit sum does not overflow (R176). -/
theorem toNat_freq {ch : Word} (h : ch.toNat < 1024) : (freq ch).toNat = 8700 + 10 * ch.toNat := by
  simp only [freq, BitVec.toNat_add, BitVec.toNat_shiftLeft, BitVec.toNat_ofNat, Nat.shiftLeft_eq]
  omega

/-- Settles O43. -/
theorem tunFreqComputesFrequency : Obligations.TunFreqComputesFrequency := by
  intro s hc
  refine ⟨freq (chanRd s.cfg s.rreg), ?_, exec_runs (i := .tunFreq) nofun hc rfl rfl⟩
  have hlt : (chanRd s.cfg s.rreg).toNat < 1024 := by
    rw [toNat_chanRd]
    exact Nat.mod_lt _ (by decide)
  rw [toNat_freq hlt, toNat_chanRd]

/-! ### The loop of TUN.WAIT (R159, R184) -/

/-- What one poll keeps, reads and uses up. -/
theorem update_fields {s : State} (hc : configOk s.cfg = true) :
    (update s).cfg = s.cfg ∧ (update s).stream = s.stream ∧ (update s).cp = s.cp ∧ (update s).rreg = s.nextBank ∧
    (update s).sampleNo = s.sampleNo + 96 ∧ (update s).answers = s.answers.drop 96 := by
  have hbody : update s = emit (s.eventsOf .tunUpdate) (consume 96 (s.registersAfter .tunUpdate)) :=
    bodyOf_eq .tunUpdate s hc
  simp [hbody, registersAfter_tunUpdate]

/-- The polls of a state after one poll are its own, one later. -/
theorem bankOfPoll_update {s : State} (hc : configOk s.cfg = true) (m : Nat) :
    bankOfPoll (update s) m = bankOfPoll s (m + 1) := by
  obtain ⟨-, -, -, -, hsamples, hanswers⟩ := update_fields hc
  simp only [bankOfPoll, State.nextDrives, consume_answers, consume_sampleNo, hsamples, hanswers, List.drop_drop]
  rw [Nat.mul_succ, Nat.add_assoc, Nat.add_comm 96]

theorem exec_wait_eq {s : State} (hc : configOk s.cfg = true) :
    exec .tunWait s = .next (advance (if stcSet s.cfg s.nextBank then 1 else 0) (update s)) := by
  obtain ⟨hcfg, -, -, hrreg, -⟩ := update_fields hc
  rw [exec_wait, guarded_ok hc rfl, waitTurn_eq, hcfg, hrreg]

theorem step_atWait {s : State} (h : AtWait s) :
    step s = .next (advance (if stcSet s.cfg (bankOfPoll s 0) then 1 else 0) (update s)) := by
  obtain ⟨hc, hcp, hd⟩ := h
  rw [step_of_decodeLegal_ok hc hcp (decodeLegal_of_wellFormed hd rfl), exec_wait_eq hc, nextBank_eq_bankOfPoll]

/-- A turn whose poll reads `STC` clear is a poll, and the machine stays at the command. -/
theorem step_atWait_again {s : State} (h : AtWait s) (hstc : stcSet s.cfg (bankOfPoll s 0) = false) :
    step s = .next (update s) ∧ AtWait (update s) := by
  obtain ⟨hcfg, hstream, hcp, -⟩ := update_fields h.1
  refine ⟨by rw [step_atWait h, hstc]; rfl, ?_⟩
  rwa [AtWait, State.fetch, hcfg, hstream, hcp]

theorem run_succ {s s' : State} (n : Nat) (h : step s = .next s') :
    Sys2Proof.core.run (n + 1) s = Sys2Proof.core.run n s' := by
  have hcore : Sys2Proof.core.step s = .next s' := h
  simp only [Host.Core.run, hcore]

/-- Settles O40. -/
theorem tunWaitIsUpdateUntilDone : Obligations.TunWaitIsUpdateUntilDone := by
  intro s hc
  obtain ⟨-, -, hcp, hrreg, -⟩ := update_fields hc
  have hdone : (bankGet (advance 1 (update s)).rreg s.cfg.rStatus &&& s.cfg.mStc != 0) = stcSet s.cfg s.nextBank :=
    congrArg (stcSet s.cfg) hrreg
  refine ⟨advance 1 (update s), perform_ok (f := update) hc rfl, ?_⟩
  rw [exec_wait_eq hc, hdone]
  cases stcSet s.cfg s.nextBank with
  | true => rfl
  | false =>
    rw [← hcp]
    rfl

/-- Settles O41, by induction on the number of polls that read `STC` clear. -/
theorem tunWaitEndsAtFirstCompletion : Obligations.TunWaitEndsAtFirstCompletion := by
  intro s n
  induction n generalizing s with
  | zero =>
    intro h _ hdone
    obtain ⟨-, -, hcp, hrreg, hsamples, -⟩ := update_fields h.1
    exact ⟨advance 1 (update s), by rw [run_succ 0 (step_atWait h), hdone]; rfl, congrArg (· + 1) hcp, hrreg, hsamples⟩
  | succ n ih =>
    intro h hclear hdone
    obtain ⟨hcfg, -, hcp, -, hsamples, -⟩ := update_fields h.1
    obtain ⟨hstep, hat⟩ := step_atWait_again h (hclear 0 n.succ_pos)
    obtain ⟨t, hrun, htcp, htrreg, htsamples⟩ := ih (update s) hat
      (fun m hm => by rw [hcfg, bankOfPoll_update h.1]; exact hclear (m + 1) (by omega))
      (by rwa [hcfg, bankOfPoll_update h.1])
    exact ⟨t, by rw [run_succ _ hstep, hrun], by rw [htcp, hcp], by rw [htrreg, bankOfPoll_update h.1],
      by rw [htsamples, hsamples]; omega⟩

/-- Settles O42, by induction on the number of turns. -/
theorem tunWaitHangsWithoutCompletion : Obligations.TunWaitHangsWithoutCompletion := by
  intro s n
  induction n generalizing s with
  | zero => exact fun h _ => ⟨s, rfl, rfl, h, rfl⟩
  | succ n ih =>
    intro h hclear
    obtain ⟨hcfg, -, hcp, -, hsamples, -⟩ := update_fields h.1
    obtain ⟨hstep, hat⟩ := step_atWait_again h (hclear 0 n.succ_pos)
    obtain ⟨t, hrun, htcp, htat, htsamples⟩ := ih (update s) hat
      (fun m hm => by rw [hcfg, bankOfPoll_update h.1]; exact hclear (m + 1) (by omega))
    exact ⟨t, by rw [run_succ _ hstep, hrun], by rw [htcp, hcp], htat, by rw [htsamples, hsamples]; omega⟩

/-! ### Terminators and unnamed bits (R31 (a), (c)) -/

theorem unnamedAgree_registersAfter {i : Instr} {s : State} (hc : configOk s.cfg = true)
    (hw : i.wellFormed s.cfg.nGlyph = true) : UnnamedAgree s.cfg s.wreg (s.registersAfter i).wreg := by
  cases i with
  | tunInit =>
    exact ((unnamedAgree_bankResetOn hc _).trans (unnamedAgree_bankResetOff hc _)).trans
      (unnamedAgree_bankWithVol hc _ (configOk_startVolume hc))
  | tunSetvol level => exact unnamedAgree_bankWithVol hc _ (of_decide_eq_true hw)
  | tunSetchan chan => exact unnamedAgree_bankWithChan hc _ (of_decide_eq_true hw)
  | tunSeek => exact unnamedAgree_bankSeeking hc _
  | tunWait | tunUpdate => exact unnamedAgree_bankPolled hc _ _
  | _ => exact .refl _ _

theorem registersAfter_terminators (i : Instr) (s : State) :
    slotGet (s.registersAfter i).name 8 = slotGet s.name 8 ∧ slotGet (s.registersAfter i).cand 8 = slotGet s.cand 8 := by
  cases i with
  | tunInit | tunSetchan | tunSeek => exact ⟨blankSlots_terminator s.name, rfl⟩
  | tunWait | tunUpdate => exact (bufsPolled_terminator s.cfg s.nextBank (s.name, s.cand)).symm
  | _ => exact ⟨rfl, rfl⟩

/-- Settles O51: every write of the cache stays inside a named field, none reaches a terminator. -/
theorem stepKeepsUnnamedBits : Obligations.StepKeepsUnnamedBits := by
  intro s t hs h
  rcases step_next h with rfl | ⟨i, hi⟩
  · exact hs
  · obtain ⟨⟨hname, hcand⟩, hunnamed⟩ := hs
    obtain ⟨hc, hw⟩ := exec_legal hi
    obtain ⟨-, -, -, hwreg, -, htname, htcand, -⟩ := exec_next_registers hi
    obtain ⟨hname8, hcand8⟩ := registersAfter_terminators i s
    refine ⟨⟨by rw [htname, hname8, hname], by rw [htcand, hcand8, hcand]⟩, fun j hj => ?_⟩
    have hkept := unnamedAgree_registersAfter hc hw j hj
    rw [← hwreg] at hkept
    rw [(exec_next_program hi).1]
    exact hkept.trans (hunnamed j hj)

/-! ### The driver state mirrors the flags (R161) -/

/-- R161's mirror for a driver state and a writable bank. -/
def Mirrors (c : Config) (u : TState) (w : Vector Word 6) : Prop :=
  (u = .seeking → bankGet w c.rSeek &&& c.mSeek ≠ 0) ∧ (u = .tuning → bankGet w c.rChan &&& c.mTune ≠ 0)

theorem stateMirrorsFlags_iff (s : State) : StateMirrorsFlags s ↔ Mirrors s.cfg s.tstate s.wreg := Iff.rfl

/-- Both flags have in `w'` the value they have in `w`. -/
def FlagsKept (c : Config) (w w' : Vector Word 6) : Prop :=
  bankGet w' c.rSeek &&& c.mSeek = bankGet w c.rSeek &&& c.mSeek ∧
  bankGet w' c.rChan &&& c.mTune = bankGet w c.rChan &&& c.mTune

theorem Mirrors.of_flagsKept {c : Config} {u : TState} {w w' : Vector Word 6} (h : Mirrors c u w)
    (hk : FlagsKept c w w') : Mirrors c u w' := by
  rwa [Mirrors, hk.1, hk.2]

theorem mirrors_idle (c : Config) (w : Vector Word 6) : Mirrors c .idle w := ⟨nofun, nofun⟩

section
variable {c : Config} (hc : configOk c = true) (w : Vector Word 6)
include hc

theorem flagsKept_bankWithVol {level : Byte} (hl : level.toNat ≤ 15) : FlagsKept c w (bankWithVol c level w) := by
  obtain ⟨-, hseekVol, -, -, htuneVol⟩ := configOk_disjoint hc
  have hv := agreesOff_mergeVol c (bankGet w c.rVol) hl
  exact ⟨bankSet_keeps_field (configOk_rVol hc) hv fun h => (BitVec.and_comm ..).trans (hseekVol h.symm),
    bankSet_keeps_field (configOk_rVol hc) hv fun h => (BitVec.and_comm ..).trans (htuneVol h.symm)⟩

theorem flagsKept_request : FlagsKept c w (bankSet w c.rRdsreq (requestOn c w)) := by
  obtain ⟨hseekRds, -, hrdsTune, -⟩ := configOk_disjoint hc
  have hv := agreesOff_toggle c.mRdsreq (bankGet w c.rRdsreq)
  exact ⟨bankSet_keeps_field (configOk_rRdsreq hc) hv fun h => (BitVec.and_comm ..).trans (hseekRds h.symm),
    bankSet_keeps_field (configOk_rRdsreq hc) hv hrdsTune⟩

theorem mirrors_seeking : Mirrors c .seeking (bankSeeking c w) := by
  refine ⟨fun _ => ?_, nofun⟩
  rw [bankSeeking, bankGet_bankSet_self _ _ _ (configOk_rSeek hc), or_and_self_right]
  exact (configOk_flags_ne_zero hc).1

theorem mirrors_tuning (chan : Word) : Mirrors c .tuning (bankWithChan c chan w) := by
  refine ⟨nofun, fun _ => ?_⟩
  rw [bankWithChan, bankGet_bankSet_self _ _ _ (configOk_rChan hc), mergeChan_and_tune]
  exact (configOk_flags_ne_zero hc).2

/-- The completion part of a poll clears the flags and ends both states; the request flag is another field. -/
theorem mirrors_polled {u : TState} (h : Mirrors c u w) (bank : Vector Word 6) :
    Mirrors c (tstatePolled c bank u) (bankPolled c bank w) := by
  have hretired : Mirrors c (tstatePolled c bank u) (bankRetired c bank w) := by
    rw [tstatePolled_eq, bankRetired]
    cases hstc : stcSet c bank with
    | false => simpa using h
    | true => cases u <;> exact ⟨nofun, nofun⟩
  unfold bankPolled
  split
  · exact hretired.of_flagsKept (flagsKept_request hc _)
  · exact hretired

end

theorem mirrors_registersAfter {i : Instr} {s : State} (hc : configOk s.cfg = true) (hw : i.wellFormed s.cfg.nGlyph = true)
    (h : Mirrors s.cfg s.tstate s.wreg) : Mirrors s.cfg (s.registersAfter i).tstate (s.registersAfter i).wreg := by
  cases i with
  | tunInit => exact mirrors_idle _ _
  | tunSetvol level => exact h.of_flagsKept (flagsKept_bankWithVol hc _ (of_decide_eq_true hw))
  | tunSetchan chan => exact mirrors_tuning hc _ chan
  | tunSeek => exact mirrors_seeking hc _
  | tunWait | tunUpdate => exact mirrors_polled hc _ h _
  | _ => exact h

/-- Settles O52: each flag is set with its state and cleared only when the state ends. -/
theorem stepKeepsStateMirrorsFlags : Obligations.StepKeepsStateMirrorsFlags := by
  intro s t hs h
  rcases step_next h with rfl | ⟨i, hi⟩
  · exact hs
  · obtain ⟨hc, hw⟩ := exec_legal hi
    obtain ⟨-, -, -, hwreg, -, -, -, htstate⟩ := exec_next_registers hi
    rw [stateMirrorsFlags_iff, (exec_next_program hi).1, hwreg, htstate]
    exact mirrors_registersAfter hc hw hs

/-! ### Reset (R30) -/

/-- Settles O11. -/
theorem resetValues : Obligations.ResetValues := by
  refine ⟨fun c => ⟨rfl, rfl, rfl, rfl, rfl, rfl, rfl, fun j hj => ?_, fun k hk => ?_, rfl, fun k hk => ?_, ?_, rfl, rfl,
    rfl⟩, rfl⟩
  · simp [State.resetWith, bankGet, hj]
  · exact blankSlots_blank (Vector.replicate 9 0) k hk
  · simp [State.resetWith, slotGet, Vector.getElem?_push, hk, hk.ne]
  · simp [State.resetWith, slotGet]

/-- Settles O53: no event, terminators 0, the bank at its preset, and the driver state neither of the two. -/
theorem resetMeetsInvariants : Obligations.ResetMeetsInvariants := fun _ =>
  ⟨rfl, ⟨rfl, by simp [State.resetWith, slotGet]⟩, fun _ _ => rfl, nofun, nofun⟩

end Sys2Proof.Machine

/-!
Proofs for the read of a byte (spec/40_bus.md R97) and the silent bus (spec/20_memory.md R47), and what a slave reads
and counts of the tuner's transfers (spec/30_encoding.md R74, spec/42_tuner.md R141 to R150).
-/

namespace Sys2Proof.Machine

/-! ### Bytes from bits (R48, R97) -/

theorem getLsbD_shiftIn (d : Byte) (bit : Bool) {j : Nat} (hj : j < 8) :
    (shiftIn d bit).getLsbD j = if j = 0 then bit else d.getLsbD (j - 1) := by
  have hbit : ((BitVec.ofBool bit).zeroExtend 8).getLsbD j = (decide (j = 0) && bit) := by
    rw [BitVec.getLsbD_setWidth, BitVec.getLsbD_ofBool, decide_eq_true hj, Bool.true_and]
  rw [shiftIn, BitVec.getLsbD_or, BitVec.getLsbD_shiftLeft, hbit]
  rcases Nat.eq_zero_or_pos j with rfl | hpos
  · simp
  · simp [hj, hpos.ne', Nat.not_lt.mpr hpos]

/-- Shifting bits into a byte: the last bit ends in position 0, the bits of the byte before them move up. -/
theorem getLsbD_foldl_shiftIn (bits : List Bool) (d : Byte) {j : Nat} (hj : j < 8) :
    (bits.foldl shiftIn d).getLsbD j =
      if j < bits.length then bits.getD (bits.length - 1 - j) false else d.getLsbD (j - bits.length) := by
  induction bits generalizing d with
  | nil => simp
  | cons b bits ih =>
    rw [List.foldl_cons, ih, List.length_cons]
    rcases Nat.lt_trichotomy j bits.length with hlt | rfl | hgt
    · rw [if_pos hlt, if_pos (by omega), show bits.length + 1 - 1 - j = bits.length - 1 - j + 1 by omega, List.getD_cons_succ]
    · rw [if_neg (Nat.lt_irrefl _), if_pos (Nat.lt_succ_self _), getLsbD_shiftIn _ _ (by omega)]
      simp
    · rw [if_neg (by omega), if_neg (by omega), getLsbD_shiftIn _ _ (by omega), if_neg (by omega), Nat.sub_sub]

theorem getLsbD_byteOf {bits : List Bool} (h : bits.length = 8) {j : Nat} (hj : j < 8) :
    (byteOf bits).getLsbD j = bits.getD (7 - j) false := by
  rw [byteOf, getLsbD_foldl_shiftIn bits 0 hj, h, if_pos hj]

theorem byteOf_msbBits (b : Byte) : byteOf (msbBits b) = b := by
  apply BitVec.eq_of_getLsbD_eq
  intro j hj
  rw [getLsbD_byteOf rfl hj]
  obtain rfl | rfl | rfl | rfl | rfl | rfl | rfl | rfl :
    j = 0 ∨ j = 1 ∨ j = 2 ∨ j = 3 ∨ j = 4 ∨ j = 5 ∨ j = 6 ∨ j = 7 := by omega
  all_goals rfl

/-! ### BUS family -/

/-- Settles O14: as O13, with both lines released before. -/
theorem busRestartReleasesThenStarts : Obligations.BusRestartReleasesThenStarts := fun s a hc =>
  exec_emits (i := .busRestart a) nofun hc rfl (restart_eq a s) (by rw [replay_append, replay_evWrite])

/-- Settles O16: the eight answers shifted in, first into bit 7. -/
theorem busReadReceivesByte : Obligations.BusReadReceivesByte := by
  intro s k hc hk
  refine ⟨(byteOf (s.nextDrives 8)).zeroExtend 16, fun j hj => ?_,
    exec_runs (i := .busRead k) nofun hc (decide_eq_true hk) (replay_evRead _ _ _)⟩
  rw [BitVec.getLsbD_setWidth, decide_eq_true hj, Bool.true_and]
  by_cases hj8 : j < 8
  · rw [getLsbD_byteOf (nextDrives_length 8 s) hj8, decide_eq_true hj8, Bool.true_and]
  · rw [decide_eq_false hj8, Bool.false_and, BitVec.getLsbD_of_ge _ _ (by omega)]

/-- Settles O19: the answers fix what both reads leave, and eight ones spell 0xFF. -/
theorem silentBusReadsOnes : Obligations.SilentBusReadsOnes := by
  intro s k hc hk
  constructor
  · intro hones
    obtain ⟨t, h⟩ := exec_answers (i := .busRead k) hc (decide_eq_true hk)
    refine ⟨t, h, (exec_next_registers h).1.trans ?_⟩
    show (byteOf (s.nextDrives 8)).zeroExtend 16 = 0x00FF
    rw [hones]
    rfl
  · intro hones
    obtain ⟨t, h, -, -, -, hrreg, -⟩ := exec_update hc
    refine ⟨t, h, fun j hj => ?_⟩
    have hbank : bankOf (List.replicate 96 true) = Vector.replicate 6 0xFFFF := by decide
    rw [hrreg, State.nextBank, hones, hbank]
    simp [bankGet, hj]

/-! ### What a slave reads of a transaction (R70, R74) -/

/-- The symbols a slave reads of events from latches `l` on a bus no slave drives; `fresh` as in `decodeLevels`. -/
def symbolsFrom (l : Bool × Bool) (fresh : Bool) (evs : List Event) : List Symbol :=
  decodeLevels (lineLevels l true) fresh (levelsAfter l (evs.map (fun ev => (ev, true))))

theorem wireItems_eq (evs : List Event) : wireItems evs = groupNine [] (symbolsFrom (false, false) true evs) := rfl

theorem symbolsFrom_evStart (evs : List Event) :
    symbolsFrom (false, false) true (evStart ++ evs) = .start :: symbolsFrom (true, true) true evs := rfl

theorem symbolsFrom_evBit (sda fresh v : Bool) (evs : List Event) :
    symbolsFrom (sda, true) fresh (evBit v ++ evs) = .bit v :: symbolsFrom (!v, true) true evs := by
  cases sda <;> cases fresh <;> cases v <;> rfl

theorem symbolsFrom_evStop (sda fresh : Bool) : symbolsFrom (sda, true) fresh evStop = [.stop] := by
  cases sda <;> cases fresh <;> rfl

/-- A written byte: its eight bits, then the unanswered acknowledgment bit. -/
theorem symbolsFrom_evWrite (sda fresh : Bool) (b : Byte) (evs : List Event) :
    symbolsFrom (sda, true) fresh (evWrite b ++ evs) =
      (msbBits b).map .bit ++ .bit true :: symbolsFrom (false, true) true evs := by
  simp only [evWrite, msbBits, List.flatMap_cons, List.flatMap_nil, List.append_assoc, List.nil_append, symbolsFrom_evBit,
    List.map_cons, List.map_nil, List.cons_append, Bool.not_true]

theorem groupNine_byte (b : Byte) (ack : Bool) (symbols : List Symbol) :
    groupNine [] ((msbBits b).map .bit ++ .bit ack :: symbols) = .byte b ack :: groupNine [] symbols := by
  conv_rhs => rw [← byteOf_msbBits b]
  rfl

theorem groupNine_evWrite (sda fresh : Bool) (b : Byte) (evs : List Event) :
    groupNine [] (symbolsFrom (sda, true) fresh (evWrite b ++ evs)) =
      .byte b true :: groupNine [] (symbolsFrom (false, true) true evs) := by
  rw [symbolsFrom_evWrite, groupNine_byte]

theorem groupNine_payload (bs : List Byte) (sda fresh : Bool) :
    groupNine [] (symbolsFrom (sda, true) fresh (bs.flatMap evWrite ++ evStop)) =
      bs.map (fun b => .byte b true) ++ [.stop] := by
  induction bs generalizing sda fresh with
  | nil => exact congrArg (groupNine []) (symbolsFrom_evStop sda fresh)
  | cons b bs ih => rw [List.flatMap_cons, List.append_assoc, groupNine_evWrite, ih]; rfl

/-- A slave reads a transaction as it was meant: start, address, payload, stop (R70). -/
theorem wireItems_evTransaction (a : Byte) (bs : List Byte) :
    wireItems (evTransaction a bs) = .start :: .byte a true :: (bs.map (fun b => .byte b true) ++ [.stop]) := by
  rw [wireItems_eq, evTransaction, List.append_assoc, List.append_assoc, symbolsFrom_evStart, ← groupNine_payload bs false true,
    ← groupNine_evWrite true true]
  rfl

/-- Settles O57: each of the three commands emits the write-one frame of its register as it leaves it. -/
theorem slaveReadsTunerWrite : Obligations.SlaveReadsTunerWrite := by
  intro i s t r _ h hcommand
  have hc := (exec_legal h).1
  have hframe : s.eventsOf i = evWriteOne s.cfg r (wregAt t r) := by
    rcases hcommand with ⟨⟨level, rfl⟩, rfl⟩ | ⟨⟨chan, rfl⟩, rfl⟩ | ⟨rfl, rfl⟩
    · rw [(wregAt_of_bankSet h (configOk_rVol hc) rfl).1]; rfl
    · rw [(wregAt_of_bankSet h (configOk_rChan hc) rfl).1]; rfl
    · rw [(wregAt_of_bankSet h (configOk_rSeek hc) rfl).1]; rfl
  refine ⟨s.eventsOf i, exec_next_trace h, ?_⟩
  rw [hframe]
  exact wireItems_evTransaction ..

/-! ### Event counts (R141 to R143, R145, R150) -/

theorem evWriteOne_length (c : Config) (i : Nat) (v : Word) : (evWriteOne c i v).length = 113 := evTransaction_length ..

theorem evWriteBank_length (c : Config) (w : Vector Word 6) : (evWriteBank c w).length = 356 := by
  simp [evWriteBank, evTransaction_length]

theorem evReadBank_length (c : Config) {bits : List Bool} (h : bits.length = 96) : (evReadBank c bits).length = 367 := by
  have hbyte : ∀ n ∈ List.range 12, (evRead ((bits.drop (8 * n)).take 8) (decide (n < 11))).length =
      24 + if n < 11 then 4 else 3 := by
    intro n hn
    rw [List.mem_range] at hn
    rw [evRead_length, List.length_take, List.length_drop, h, Nat.min_eq_left (by omega)]
    simp
  simp only [evReadBank, List.length_append, evWrite_length, List.length_flatMap, List.map_congr_left hbyte]
  rfl

theorem evToggle_length (c : Config) (bank w : Vector Word 6) :
    (evToggle c bank w).length = if rdsrSet c bank then 226 else 0 := by
  unfold evToggle
  split
  · rw [List.length_append, evWriteOne_length, evWriteOne_length]
  · rfl

theorem eventsOf_poll_length (s : State) :
    (s.eventsOf .tunUpdate).length = if rdsrSet s.cfg s.nextBank = true then 593 else 367 := by
  rw [eventsOf_tunUpdate, List.length_append, evReadBank_length _ (nextDrives_length 96 s), evToggle_length]
  split <;> rfl

/-- Settles O58: the lengths of the frames each operation emits. -/
theorem tunerEventCounts : Obligations.TunerEventCounts := by
  intro i s t h hbus hdsp
  refine ⟨s.eventsOf i, exec_next_trace h, ?_⟩
  obtain ⟨-, -, -, -, hrreg, -⟩ := exec_next_registers h
  rw [hrreg]
  cases i with
  | tunInit => rw [eventsOf_tunInit, List.length_append, List.length_append, evWriteBank_length, evWriteBank_length,
      evWriteOne_length, if_pos rfl]
  | tunFreq => rfl
  | tunUpdate => exact eventsOf_poll_length s
  | tunWait => exact eventsOf_poll_length s
  | tunSetvol level => exact evWriteOne_length ..
  | tunSetchan chan => exact evWriteOne_length ..
  | tunSeek => exact evWriteOne_length ..
  | busStart | busWrite | busRead | busRestart | busStop => cases hbus
  | _ => cases hdsp

end Sys2Proof.Machine

/-!
Proofs for the DSP family's functional statements (spec/41_display.md R111 to R123): the whole next state of each
operation, where a text leaves the cursor, and the decimal digits of a number by repeated subtraction.
-/

namespace Sys2Proof.Machine

/-! ### Cursor and pages -/

/-- Settles O20. -/
theorem dspInitSendsInitBytes : Obligations.DspInitSendsInitBytes := fun _ hc =>
  exec_runs_closed (i := .dspInit) rfl nofun nofun hc rfl

/-- Settles O21. -/
theorem dspSetcursorMovesShadow : Obligations.DspSetcursorMovesShadow := fun _ col row hc =>
  exec_runs_closed (i := .dspSetcursor col row) rfl nofun nofun hc rfl

/-- Settles O22. -/
theorem dspClearlineBlanksRest : Obligations.DspClearlineBlanksRest := fun _ hc =>
  exec_runs_closed (i := .dspClearline) rfl nofun nofun hc rfl

theorem evClearScreen_eq (c : Config) : evClearScreen c = evCursor c 0 0 ++ ([1, 2, 3, 4] : List Byte).flatMap
    (fun page => evDisplayData c (List.replicate c.dispCols 0x00) ++ evCursor c 0 page) := by
  simp [evClearScreen, evClearLine]

/-- Settles O23: four pages from column 0, each blanked whole. -/
theorem dspClearscreenBlanksFourPages : Obligations.DspClearscreenBlanksFourPages := by
  intro s hc
  rw [← evClearScreen_eq]
  exact exec_runs_closed (i := .dspClearscreen) rfl nofun nofun hc rfl

/-! ### Texts -/

/-- The text hypothesis of the statements is the operand check (R67). -/
theorem charOk_of_range {n : Nat} {c : Byte} (h : 32 ≤ c.toNat ∧ c.toNat < 32 + n) : charOk n c = true := by
  simp only [charOk, Bool.and_eq_true, decide_eq_true_eq]
  exact h

theorem all_charOk_of_range {n : Nat} {cs : List Byte} (h : ∀ c ∈ cs, 32 ≤ c.toNat ∧ c.toNat < 32 + n) :
    cs.all (charOk n) = true :=
  List.all_eq_true.mpr fun c hc => charOk_of_range (h c hc)

/-- Settles O25. -/
theorem dspPrintstrSendsPages : Obligations.DspPrintstrSendsPages := fun _ cs hc hcs =>
  exec_runs_closed (i := .dspPrintstr cs) rfl nofun nofun hc (all_charOk_of_range hcs)

/-- Settles O27. -/
theorem dspPrintlineClearsAfterText : Obligations.DspPrintlineClearsAfterText := fun _ cs hc hcs =>
  exec_runs_closed (i := .dspPrintline cs) rfl nofun nofun hc (all_charOk_of_range hcs)

/-- The wrap test in numbers (R117, R134). -/
theorem wrapLimit_lt_iff (x : Byte) : wrapLimit < x + 6 ↔ 122 < (x.toNat + 6) % 256 := by
  rw [BitVec.lt_def, BitVec.toNat_add]
  rfl

/-- A font character's index in the font ROM (R116): the 16-bit arithmetic does not overflow. -/
theorem toNat_glyphIndex {ch : Byte} (h : 32 ≤ ch.toNat) : (glyphIndex ch).toNat = (ch.toNat - 32) * 5 := by
  have hlt := ch.isLt
  simp only [glyphIndex, BitVec.toNat_mul, BitVec.toNat_sub, BitVec.toNat_setWidth, BitVec.ofNat_eq_ofNat,
    BitVec.toNat_ofNat]
  omega

theorem glyphBytes_eq (c : Config) {ch : Byte} (h : 32 ≤ ch.toNat) :
    let i := (ch.toNat - 32) * 5
    glyphBytes c ch = [0x00, fontByte c i, fontByte c (i + 1), fontByte c (i + 2), fontByte c (i + 3), fontByte c (i + 4)] := by
  simp only [glyphBytes, toNat_glyphIndex h]

theorem evText_singleton_wrap (c : Config) {x : Byte} (y ch : Byte) (h : wrapLimit < x + 6) :
    evText c x y [ch] = evDisplayData c (glyphBytes c ch) ++ evCursor c 0 (y + 1) ++ evDisplayData c [] := by
  simp only [evText, pageGroups, if_pos h, groupBytes, evPages, List.flatMap_cons, List.flatMap_nil, List.append_nil,
    List.append_assoc]

theorem evText_singleton (c : Config) {x : Byte} (y ch : Byte) (h : ¬ wrapLimit < x + 6) :
    evText c x y [ch] = evDisplayData c (glyphBytes c ch) := by
  simp only [evText, pageGroups, if_neg h, groupBytes, evPages, List.flatMap_cons, List.flatMap_nil, List.append_nil]

/-- The next state of `DSP.PRINTCHAR`, before the wrap test is decided. -/
theorem exec_printchar {s : State} {ch : Byte} (hc : configOk s.cfg = true) (hch : charOk s.cfg.nGlyph ch = true) :
    exec (.dspPrintchar ch) s = .next { s with
      cp := s.cp + 2, sdaDrv := false, sclDrv := false
      curX := (cursorStep (s.curX, s.curY)).1, curY := (cursorStep (s.curX, s.curY)).2
      traceRev := (evText s.cfg s.curX s.curY [ch]).reverse ++ s.traceRev } :=
  exec_runs_closed (i := .dspPrintchar ch) rfl nofun nofun hc hch

/-- Settles O24, by whether the character takes the cursor past column 122. -/
theorem dspPrintcharPlotsGlyph : Obligations.DspPrintcharPlotsGlyph := by
  intro s ch hc hlow hhigh
  rw [exec_printchar hc (charOk_of_range ⟨hlow, hhigh⟩), cursorStep_eq]
  simp only [← wrapLimit_lt_iff, ← glyphBytes_eq s.cfg hlow]
  by_cases hwrap : wrapLimit < s.curX + 6
  · rw [evText_singleton_wrap _ _ _ hwrap, if_pos hwrap, if_pos hwrap]
  · rw [evText_singleton _ _ _ hwrap, if_neg hwrap, if_neg hwrap]

/-! ### Where a text leaves the cursor (R121) -/

/-- From character position `k` of a page one character leads to the next, and from the 21st to the next page. -/
theorem cursorStep_position {k : Nat} (hk : k < 21) (y : Byte) : cursorStep (BitVec.ofNat 8 (6 * k), y) =
    if k = 20 then (0, y + 1) else (BitVec.ofNat 8 (6 * (k + 1)), y) := by
  have hx : BitVec.ofNat 8 (6 * k) + 6 = BitVec.ofNat 8 (6 * (k + 1)) := by
    apply BitVec.eq_of_toNat_eq
    simp only [BitVec.toNat_add, BitVec.ofNat_eq_ofNat, BitVec.toNat_ofNat]
    omega
  have hwrap : wrapLimit < BitVec.ofNat 8 (6 * (k + 1)) ↔ k = 20 := by
    rw [BitVec.lt_def, BitVec.toNat_ofNat, show wrapLimit.toNat = 122 from rfl, Nat.mod_eq_of_lt (by omega)]
    omega
  rw [cursorStep_eq, hx]
  simp only [hwrap]

theorem cursorAfter_position (n : Nat) {k : Nat} (hk : k < 21) (y : Byte) :
    cursorAfter n (BitVec.ofNat 8 (6 * k), y) =
      (BitVec.ofNat 8 (6 * ((k + n) % 21)), y + BitVec.ofNat 8 ((k + n) / 21)) := by
  induction n generalizing k y with
  | zero => simp [cursorAfter, Nat.mod_eq_of_lt hk, Nat.div_eq_of_lt hk]
  | succ n ih =>
    rw [cursorAfter, cursorStep_position hk]
    split
    · subst k
      have hpage : (20 + (n + 1)) / 21 = n / 21 + 1 := by omega
      have hcol : (20 + (n + 1)) % 21 = n % 21 := by omega
      have hnext := ih (k := 0) (by decide) (y + 1)
      rw [Nat.zero_add] at hnext
      rw [hpage, hcol]
      refine hnext.trans (Prod.ext rfl ?_)
      apply BitVec.eq_of_toNat_eq
      simp only [BitVec.toNat_add, BitVec.ofNat_eq_ofNat, BitVec.toNat_ofNat]
      omega
    · rw [ih (by omega), Nat.add_assoc, Nat.add_comm 1 n]

/-- Settles O26: column 0 is character position 0. -/
theorem stringOf21FillsPage : Obligations.StringOf21FillsPage := by
  intro s cs hc hcs hx
  have hcursor := cursorAfter_position cs.length (k := 0) (by decide) s.curY
  rw [Nat.zero_add] at hcursor
  refine ⟨_, dspPrintstrSendsPages s cs hc hcs, ?_, ?_⟩
  · show (cursorAfter cs.length (s.curX, s.curY)).1 = _
    rw [hx]
    exact congrArg Prod.fst hcursor
  · show (cursorAfter cs.length (s.curX, s.curY)).2 = _
    rw [hx]
    exact congrArg Prod.snd hcursor

/-! ### Digits by repeated subtraction (R123) -/

/-- With fuel for every subtraction the loop divides: it leaves the remainder and adds the quotient to the count. -/
theorem subtractLoop_eq {pw : Word} (hpw : 0 < pw.toNat) (fuel : Nat) (v : Word) (d : Byte)
    (hfuel : v.toNat / pw.toNat ≤ fuel) :
    (subtractLoop pw fuel v d).1.toNat = v.toNat % pw.toNat ∧
    (subtractLoop pw fuel v d).2 = d + BitVec.ofNat 8 (v.toNat / pw.toNat) := by
  induction fuel generalizing v d with
  | zero =>
    have hzero : v.toNat / pw.toNat = 0 := Nat.le_zero.mp hfuel
    have hlt : v.toNat < pw.toNat := (Nat.div_eq_zero_iff_lt hpw).mp hzero
    simp [subtractLoop, hzero, Nat.mod_eq_of_lt hlt]
  | succ fuel ih =>
    rw [subtractLoop]
    split
    · rename_i hle
      rw [BitVec.le_def] at hle
      have hsub : (v - pw).toNat = v.toNat - pw.toNat := BitVec.toNat_sub_of_le hle
      have hdiv : v.toNat / pw.toNat = (v.toNat - pw.toNat) / pw.toNat + 1 := Nat.div_eq_sub_div hpw hle
      obtain ⟨hrem, hcount⟩ := ih (v - pw) (d + 1) (by rw [hsub]; omega)
      rw [hrem, hcount, hsub, hdiv]
      refine ⟨(Nat.mod_eq_sub_mod hle).symm, ?_⟩
      rw [BitVec.add_assoc, BitVec.ofNat_add, BitVec.add_comm 1]
      rfl
    · rename_i hle
      have hlt : v.toNat < pw.toNat := by rw [BitVec.le_def] at hle; omega
      simp [Nat.mod_eq_of_lt hlt, Nat.div_eq_of_lt hlt]

theorem toNat_pow10 {p : Nat} (hp : p ≤ 4) : (pow10 p).toNat = 10 ^ p := by
  obtain rfl | rfl | rfl | rfl | rfl : p = 0 ∨ p = 1 ∨ p = 2 ∨ p = 3 ∨ p = 4 := by omega
  all_goals rfl

theorem takeDigit_eq (v : Word) {p : Nat} (hp : p ≤ 4) :
    (takeDigit v p).1.toNat = v.toNat % 10 ^ p ∧ (takeDigit v p).2 = BitVec.ofNat 8 (v.toNat / 10 ^ p) := by
  have hpow := toNat_pow10 hp
  have hpos : 0 < (pow10 p).toNat := hpow ▸ Nat.pow_pos (by decide)
  have hloop := subtractLoop_eq hpos v.toNat v 0 (Nat.div_le_self ..)
  rw [hpow] at hloop
  exact ⟨hloop.1, hloop.2.trans (BitVec.zero_add _)⟩

/-- Settles O29: the quotient is a decimal digit, so its count fits the byte. -/
theorem repeatedSubtractionDivides : Obligations.RepeatedSubtractionDivides := by
  intro v p hp hv
  obtain ⟨hrem, hcount⟩ := takeDigit_eq v hp
  have hdigit : v.toNat / 10 ^ p < 10 := Nat.div_lt_of_lt_mul (by rwa [Nat.pow_succ] at hv)
  refine ⟨hrem, ?_⟩
  rw [hcount, BitVec.toNat_ofNat, Nat.mod_eq_of_lt (by omega)]

/-! ### The text of a number (R123) -/

/-- The characters of `numberText` for one position. -/
def positionText (value : Word) (digits : Nat) (decimal : Byte) (p : Nat) : List Byte :=
  (if digitShown value digits decimal p then BitVec.ofNat 8 (0x30 + digitAt value p) else 0x20) ::
    (if decimal != 0 && p == decimal.toNat then [0x2E] else [])

theorem numberText_eq (value : Word) (digits : Nat) (decimal : Byte) :
    numberText value digits decimal = (List.range digits).reverse.flatMap (positionText value digits decimal) := rfl

theorem digitShown_top (value : Word) (digits : Nat) (decimal : Byte) : digitShown value digits decimal digits = false := by
  rw [digitShown, List.any_eq_false]
  intro q hq
  rw [List.mem_range] at hq
  simp [hq]

/-- A position is shown when the one left of it is, or it is the decimal position, or its digit is not zero. -/
theorem digitShown_succ (value : Word) {digits p : Nat} (decimal : Byte) (hp : p < digits) :
    digitShown value digits decimal p =
      (digitShown value digits decimal (p + 1) || p == decimal.toNat || digitAt value p != 0) := by
  rw [Bool.eq_iff_iff]
  simp only [digitShown, List.any_eq_true, List.mem_range, Bool.and_eq_true, Bool.or_eq_true, decide_eq_true_eq,
    bne_iff_ne, beq_iff_eq]
  constructor
  · rintro ⟨q, hq, hpq, hshown⟩
    rcases hpq.eq_or_lt with rfl | hlt
    · exact hshown.elim .inr (.inl ∘ .inr)
    · exact .inl (.inl ⟨q, hq, hlt, hshown⟩)
  · rintro ((⟨q, hq, hpq, hshown⟩ | hdecimal) | hdigit)
    · exact ⟨q, hq, by omega, hshown⟩
    · exact ⟨p, hp, le_rfl, .inr hdecimal⟩
    · exact ⟨p, hp, le_rfl, .inl hdigit⟩

/-- The digit taken from what is left of a value at position `p` is the value's digit there. -/
theorem digitAt_of_mod {value v : Word} {p : Nat} (hv : v.toNat = value.toNat % 10 ^ (p + 1)) :
    v.toNat / 10 ^ p = digitAt value p ∧ v.toNat % 10 ^ p = value.toNat % 10 ^ p := by
  rw [hv, digitAt, Nat.pow_succ]
  exact ⟨Nat.mod_mul_right_div_self .., Nat.mod_mul_right_mod ..⟩

/-- From what is left of the value below position `n` on, the loop sends the rest of the text. -/
theorem numberChars_eq (value : Word) {digits : Nat} (decimal : Byte) (hdigits : digits ≤ 5) (n : Nat) (hn : n ≤ digits)
    (v : Word) (hv : v.toNat = value.toNat % 10 ^ n) :
    numberChars decimal n v (digitShown value digits decimal n) =
      (List.range n).reverse.flatMap (positionText value digits decimal) := by
  induction n generalizing v with
  | zero => rfl
  | succ p ih =>
    obtain ⟨hrem, hcount⟩ := takeDigit_eq v (p := p) (by omega)
    obtain ⟨hdigit, hmod⟩ := digitAt_of_mod hv
    have hlt : digitAt value p < 10 := Nat.mod_lt _ (by decide)
    have hnonzero : ((takeDigit v p).2 != 0) = (digitAt value p != 0) := by
      rw [hcount, hdigit, Bool.eq_iff_iff, bne_iff_ne, bne_iff_ne, not_iff_not, ← BitVec.toNat_inj, BitVec.toNat_ofNat,
        Nat.mod_eq_of_lt (by omega)]
      rfl
    have hshown : shownAfter (digitShown value digits decimal (p + 1)) decimal p (takeDigit v p).2 =
        digitShown value digits decimal p := by
      rw [shownAfter, hnonzero, digitShown_succ value (p := p) decimal (by omega)]
    have hchars : positionChars (digitShown value digits decimal p) decimal p (takeDigit v p).2 =
        positionText value digits decimal p := by
      rw [positionChars, positionText, hcount, hdigit, BitVec.ofNat_add]
      rfl
    simp only [numberChars, hshown, hchars, List.range_succ, List.reverse_append, List.reverse_cons, List.reverse_nil,
      List.nil_append, List.singleton_append, List.flatMap_cons]
    rw [ih (by omega) _ (hrem.trans hmod)]

/-- The text by repeated subtraction is the text by division. -/
theorem numberChars_eq_numberText {value : Word} {digits : Nat} (decimal : Byte) (hdigits : digits ≤ 5)
    (hv : value.toNat < 10 ^ digits) : numberChars decimal digits value false = numberText value digits decimal := by
  rw [numberText_eq, ← digitShown_top value digits decimal]
  exact numberChars_eq value decimal hdigits digits le_rfl value (Nat.mod_eq_of_lt hv).symm

/-- Settles O28. -/
theorem dspPrintnumSendsDecimalText : Obligations.DspPrintnumSendsDecimalText := by
  intro s value digits decimal hc hdigits hv
  rw [← numberChars_eq_numberText decimal hdigits hv]
  exact exec_runs_closed (i := .dspPrintnum value digits decimal) rfl nofun nofun hc
    (by simp only [Instr.wellFormed, hdigits, hv, decide_true, Bool.and_self])

end Sys2Proof.Machine
